-- ==== Sys2Proof/Word.lean ====
section
/-! DEFINITION. The two word types of the hardware (spec/00_scope.md R6): the byte that every
register but PC and every memory access holds, and the 16-bit address. -/

namespace Sys2Proof

/-- `u8`: the width of A, X, Y, P, SP, IR and of every memory access (R6, R33). -/
abbrev Byte := BitVec 8

/-- `u16`: the width of PC and of an address (R6). -/
abbrev Addr := BitVec 16

end Sys2Proof
end

