-- ==== Sys2Proof/Machine/Bits.lean ====
section
/-! DEFINITION. The byte-order, extension and single-bit helpers of spec/00_scope.md R8. -/

namespace Sys2Proof

/-- `hi:lo`, the 16-bit value `hi * 256 + lo` (R8; little-endian assembly is R32). -/
def hiLo (hi lo : Byte) : Addr := hi ++ lo

/-- `lo8(v) = v[7:0]` (R8). -/
def lo8 (v : Addr) : Byte := v.extractLsb' 0 8

/-- `hi8(v) = v[15:8]` (R8); the mask of R202, `(PC >> 8) & 0xFF`. -/
def hi8 (v : Addr) : Byte := v.extractLsb' 8 8

/-- `zext_16(v)` (R8). -/
def zext16 (v : Byte) : Addr := v.setWidth 16

/-- `sext_16(v)` (R8). -/
def sext16 (v : Byte) : Addr := v.signExtend 16

/-- `P.x <- b`: writes bit `k` of a byte and no other (R8). -/
def writeBit (p : Byte) (k : Nat) (b : Bool) : Byte :=
  if b then p ||| (0x01#8 <<< k) else p &&& ~~~(0x01#8 <<< k)

/-- A bit as a byte, 0 or 1. -/
def bitByte (b : Bool) : Byte := if b then 0x01#8 else 0x00#8

end Sys2Proof
end

