-- ==== Sys2Proof/Config.lean ====
section
/-! DEFINITION. The configuration record of spec/00_scope.md R7, fixed for the machine. A step takes
it from the state, where it rides as plain data (log 1); statements hold for every value of it. -/

namespace Sys2Proof

/-- `Cfg` (R7). -/
structure Cfg where
  /-- `START_ADDR`, the address of the first opcode: OPEN in R7, given by the launch (log 2). -/
  startAddr : Addr
  /-- The high byte of `STACK_BASE`, which is a multiple of 256 (R7, R185; log 3). -/
  stackPage : Byte
  /-- `SP_RESET` (R7). -/
  spReset : Byte
  /-- `INDY_PTR_ZP_WRAP` (R7, R79): true reads the (zp),Y pointer's high byte inside the zero page. -/
  indyPtrZpWrap : Bool
  /-- `RTI_PC_INCREMENT` (R7, R204): true is 1, false is 0. -/
  rtiPcIncrement : Bool
  /-- `EXT_JMP_INDIRECT` (R7, R59): true gives opcode 0x6C the meaning of
  spec/93_implementation_defined.md U8 (log 4). -/
  extJmpIndirect : Bool
  /-- The variant parameter U8 asks for: true reads the pointer's high byte in the pointer's own
  page, false at `ptr +16 1` (log 5). Read only under `extJmpIndirect`. -/
  jmpIndPageWrap : Bool
  deriving DecidableEq, Repr

/-- `STACK_BASE` (R7). -/
def Cfg.stackBase (c : Cfg) : Addr := c.stackPage ++ 0x00#8

/-- The defaults of R7. `START_ADDR` has none there: 0x0000, the address of the source's own
scenario, is a DESIGN CHOICE (log 2); `jmpIndPageWrap := true` is PRESUMED (log 5). -/
def Cfg.default : Cfg where
  startAddr := 0x0000#16
  stackPage := 0x01#8
  spReset := 0xFF#8
  indyPtrZpWrap := false
  rtiPcIncrement := true
  extJmpIndirect := false
  jmpIndPageWrap := true

end Sys2Proof
end

