-- ==== Sys2Proof/Machine/State.lean ====
section
/-! DEFINITION. The state of the machine: the seven registers of spec/10_state.md R10, the memory it
reads and writes (spec/20_memory.md R30, R31), its configuration (log 1) and what the latest step
returned beside them (log 8). Plain data throughout. -/

namespace Sys2Proof.Machine

/-- Memory as the cells that differ from 0x00, the content "at creation" (R31), in rising order of
address: Machine/Memory.lean reads and writes it and says what its canonical form is. -/
abbrev Memory := List Host.Cell

/-- The two stack signals (R187, R234). -/
inductive Diagnostic where
  | stackOverflow
  | stackUnderflow
  deriving DecidableEq, Repr

/-- The three results of a step (R230). -/
inductive StepResult where
  | ok
  | halted
  | unknownOpcode (op : Byte) (pc : Addr)
  deriving DecidableEq, Repr

structure State where
  /-- The accumulator (R11). -/
  a : Byte
  /-- Index register X (R12). -/
  x : Byte
  /-- Index register Y (R13). -/
  y : Byte
  /-- The status register, N V 1 B D I Z C from bit 7 down (R16; log 13). -/
  p : Byte
  /-- The stack pointer, an offset into the stack window (R25). -/
  sp : Byte
  /-- The program counter (R14). -/
  pc : Addr
  /-- The instruction register, the last opcode byte fetched (R27). -/
  ir : Byte
  /-- The 65536 bytes of memory (R30). -/
  mem : Memory
  /-- The configuration of the launch (R7); no step changes it (log 1). -/
  cfg : Cfg
  /-- The model's own: the stack signals of the latest step, an output that no step reads
  (R234; log 8). -/
  diagnostics : List Diagnostic
  /-- The model's own: the result of the latest step, an output that no step reads (R230; log 8). -/
  result : StepResult
  deriving DecidableEq, Repr

/-- Reset (R28, R250) of a core whose memory and configuration the launch gives (R254). -/
def State.launch (cfg : Cfg) (mem : Memory) : State where
  a := 0x00#8
  x := 0x00#8
  y := 0x00#8
  p := 0x30#8
  sp := cfg.spReset
  pc := cfg.startAddr
  ir := 0x00#8
  mem := mem
  cfg := cfg
  diagnostics := []
  result := .ok

/-- The machine right after reset under the default configuration, with memory as created: nothing
listed, every byte 0x00 (R31; logs 2, 8, 9). -/
def State.reset : State := State.launch Cfg.default []

/-- The reasons a step stops. -/
inductive Fault where
  /-- The opcode byte `op`, fetched at `pc`, has no table entry: `UnknownOpcode(op, pc)` (R232).
  Raised by `undecoded` (Machine/Fetch.lean) and by no instruction. Safe: the hardware's run loop
  ends there too, and `unknownState` gives the state R232 states after it (log 7). -/
  | unknownOpcode (op : Byte) (pc : Addr)
  deriving DecidableEq, Repr

/-- The reasons an instruction has no meaning in the model. -/
inductive Refusal where
  /-- An instruction of the table whose meaning is not written yet. Nobody raises it: every arm of
  `exec` calls a meaning. Safe. -/
  | notModelled (mnemonic : String)
  deriving DecidableEq, Repr

/-- What a meaning answers. -/
abbrev Result := Host.Outcome State Fault Refusal

end Sys2Proof.Machine
end

