-- ==== Sys2Proof/Machine/Memory.lean ====
section
/-! DEFINITION. Memory as a canonical list of cells (spec/20_memory.md R30 to R35): 65536 bytes, each
readable and writable, 0x00 where nothing was written (R31; log 9). -/

namespace Sys2Proof.Machine

/-- The byte at address `a`: the listed one, else 0x00. -/
def Memory.read : Memory → Nat → Byte
  | [], _ => 0x00#8
  | (b, v) :: rest, a => if a = b then v else Memory.read rest a

/-- A cell in front of a list, unless it holds what an unlisted address reads as. -/
def Memory.consCell (a : Nat) (v : Byte) (rest : Memory) : Memory :=
  if v = 0x00#8 then rest else (a, v) :: rest

/-- The memory after byte `v` is stored at address `a`; the canonical form is kept. -/
def Memory.write : Memory → Nat → Byte → Memory
  | [], a, v => Memory.consCell a v []
  | (b, w) :: rest, a, v =>
    if a < b then Memory.consCell a v ((b, w) :: rest)
    else if a = b then Memory.consCell a v rest
    else (b, w) :: Memory.write rest a v

/-- Cells from address `lo` on, in strictly rising order, inside the 65536 bytes, none 0x00. -/
def Memory.wfFrom : Nat → Memory → Bool
  | _, [] => true
  | lo, (b, v) :: rest =>
    decide (lo ≤ b) && decide (b < 65536) && decide (v ≠ 0x00#8) && Memory.wfFrom (b + 1) rest

/-- The canonical form: equal memories are equal lists. -/
def Memory.wf (m : Memory) : Bool := Memory.wfFrom 0 m

end Sys2Proof.Machine
end

