-- ==== Sys2Proof/Machine/Ops.lean ====
section
/-! DEFINITION. The named operations over registers and memory: one accessor per register and byte,
the stack primitives of spec/47_stack.md, the reset of spec/70_reset_and_hazards.md and the halt of
spec/49_flag_and_misc.md R218. The hardware has no trap entry: nothing is saved and no control is
transferred when a step ends without executing (R237). -/

namespace Sys2Proof.Machine

def State.setA (s : State) (v : Byte) : State := { s with a := v }
def State.setX (s : State) (v : Byte) : State := { s with x := v }
def State.setY (s : State) (v : Byte) : State := { s with y := v }
def State.setP (s : State) (v : Byte) : State := { s with p := v }
def State.setSP (s : State) (v : Byte) : State := { s with sp := v }
def State.setPC (s : State) (v : Addr) : State := { s with pc := v }
def State.setIR (s : State) (v : Byte) : State := { s with ir := v }
def State.setMem (s : State) (m : Memory) : State := { s with mem := m }
def State.setDiagnostics (s : State) (d : List Diagnostic) : State := { s with diagnostics := d }
def State.setResult (s : State) (r : StepResult) : State := { s with result := r }

/-- Stage 4 of the step, "Advance PC by instruction length" modulo 65536 (R104, R15). -/
def State.advance (s : State) (n : Nat) : State := s.setPC (s.pc + BitVec.ofNat 16 n)

/-- `P <- v | 0x30`: writing the whole of P leaves bits 5 and 4 at 1 (R16, R22, R193). -/
def State.setStatus (s : State) (v : Byte) : State := s.setP (v ||| 0x30#8)

/-- `MemRead(addr, 1)` (R8, R33): every address is valid (R30). -/
def State.load (s : State) (addr : Addr) : Byte := s.mem.read addr.toNat

/-- `MemWrite(addr, 1, v)` (R8, R33). -/
def State.store (s : State) (addr : Addr) (v : Byte) : State := s.setMem (s.mem.write addr.toNat v)

/-- Stores bytes at consecutive addresses, modulo 65536. -/
def State.storeBytes : State → Addr → List Byte → State
  | s, _, [] => s
  | s, addr, v :: rest => State.storeBytes (s.store addr v) (addr + 1) rest

/-- `signal d`: appends to the step's diagnostic list and changes nothing else (R8, R187; log 17). -/
def State.signal (s : State) (d : Diagnostic) : State := s.setDiagnostics (s.diagnostics ++ [d])

/-- The address of stack offset `sp`, `hi8(STACK_BASE):SP` (R25, R185). -/
def stackAddr (cfg : Cfg) (sp : Byte) : Addr := hiLo cfg.stackPage sp

/-- `Push(v)` (R185): write at SP, signal StackOverflow when SP is 0x00, decrement modulo 256. -/
def push (v : Byte) (s : State) : State :=
  let s1 := s.store (stackAddr s.cfg s.sp) v
  let s2 := if s.sp = 0x00#8 then s1.signal .stackOverflow else s1
  s2.setSP (s.sp - 1)

/-- `Pull()` (R186): signal StackUnderflow when SP is 0xFF, increment modulo 256, read at SP. -/
def pull (s : State) : Byte × State :=
  let s1 := if s.sp = 0xFF#8 then s.signal .stackUnderflow else s
  let s2 := s1.setSP (s.sp + 1)
  (s2.load (stackAddr s2.cfg s2.sp), s2)

/-- `raise Halted` (R8, R218): the step ends with the result `Halted` and changes nothing. -/
def halt (s : State) : State := s.setResult .halted

/-- The reset operation (R250) at any step boundary (R252): all seven registers are written, memory
and configuration are not, and it is no step. -/
def resetCore (s : State) : State := State.launch s.cfg s.mem

end Sys2Proof.Machine
end

