-- ==== Sys2Proof/Machine/Flags.lean ====
section
/-! DEFINITION. The flags of P (spec/10_state.md R16) and the flag engine
(spec/41_flags_and_dispatch.md R90 to R95): pure functions from operand values and incoming flags to
a result and outgoing flags. -/

namespace Sys2Proof.Machine

/-- The six writable bits of P (R16). Bits 5 and 4 have no constructor: no flag write reaches them. -/
inductive Flag where
  | n | v | d | i | z | c
  deriving DecidableEq, Repr

/-- The bit of P that holds the flag (R16). -/
def Flag.index : Flag → Nat
  | .n => 7
  | .v => 6
  | .d => 3
  | .i => 2
  | .z => 1
  | .c => 0

/-- `P.x` (R8). -/
def State.flag (s : State) (f : Flag) : Bool := s.p.getLsbD f.index

/-- `P.x <- b` (R8): that bit and no other. -/
def State.setFlag (s : State) (f : Flag) (b : Bool) : State := s.setP (writeBit s.p f.index b)

/-- `SetNZ(v)` (R91). -/
def State.setNZ (s : State) (v : Byte) : State := (s.setFlag .n v.msb).setFlag .z (v == 0x00#8)

/-- `AddWithCarry(a, m, c)` (R92): result, carry out, signed overflow. D is no input (R131). -/
def addWithCarry (a m : Byte) (c : Bool) : Byte × Bool × Bool :=
  let sum := a.toNat + m.toNat + c.toNat
  let r := BitVec.ofNat 8 sum
  (r, decide (sum > 255), a.msb == m.msb && r.msb != a.msb)

/-- `SubWithBorrow(a, m, c)` (R93): addition of the one's complement. -/
def subWithBorrow (a m : Byte) (c : Bool) : Byte × Bool × Bool := addWithCarry a (~~~m) c

/-- `Compare(reg, m)` (R95): N, Z and C of the unsigned subtraction. -/
def compareBytes (reg m : Byte) : Bool × Bool × Bool :=
  ((reg - m).msb, reg == m, decide (m.toNat ≤ reg.toNat))

/-- `Asl(m)` (R94): result and the bit shifted out. -/
def asl (m : Byte) : Byte × Bool := (m <<< 1, m.msb)

/-- `Lsr(m)` (R94). -/
def lsr (m : Byte) : Byte × Bool := (m >>> 1, m.getLsbD 0)

/-- `Rol(m, c)` (R94): the old carry enters bit 0. -/
def rol (m : Byte) (c : Bool) : Byte × Bool := ((m <<< 1) ||| bitByte c, m.msb)

/-- `Ror(m, c)` (R94): the old carry enters bit 7. -/
def ror (m : Byte) (c : Bool) : Byte × Bool := ((m >>> 1) ||| (bitByte c <<< 7), m.getLsbD 0)

end Sys2Proof.Machine
end

