-- ==== Sys2Proof/Syntax.lean ====
section
/-! DEFINITION. The instruction set as syntax: the mnemonics, the addressing modes, the operand an
instruction carries, and `Instr`, one constructor per row of spec/opcode_table.json
(spec/30_encoding.md R50 to R54). -/

namespace Sys2Proof

/-- The 56 mnemonics (R54, "56 mnemonics, 150 opcode bytes"). `brk` is the halt sentinel's name
in listings (R60). -/
inductive Mnemonic where
  | lda | ldx | ldy
  | sta | stx | sty
  | tax | tay | txa | tya | tsx | txs
  | adc | sbc
  | cmp | cpx | cpy
  | inc | dec | inx | iny | dex | dey
  | and | ora | eor | bit
  | asl | lsr | rol | ror
  | bcc | bcs | beq | bmi | bne | bpl | bvc | bvs
  | pha | pla | php | plp
  | jmp | jsr | rts | rti
  | clc | sec | cli | sei | clv | cld | sed | nop | brk
  deriving DecidableEq, Repr

/-- The twelve addressing-mode tags (R51); there is no other (R83). -/
inductive Mode where
  | imm | zp | zpx | zpy | abs | absx | absy | indx | indy | rel | acc | imp
  deriving DecidableEq, Repr

/-- The instruction's length in bytes, from its mode tag alone (R51, R56). -/
def Mode.length : Mode → Nat
  | .acc | .imp => 1
  | .imm | .zp | .zpx | .zpy | .indx | .indy | .rel => 2
  | .abs | .absx | .absy => 3

/-- An operand in one of the eight modes whose resolution is an address (R72 to R79), with its
operand byte or word as assembled by R52. -/
inductive MemOperand where
  | zp (b : Byte) | zpx (b : Byte) | zpy (b : Byte)
  | abs (w : Addr) | absx (w : Addr) | absy (w : Addr)
  | indx (b : Byte) | indy (b : Byte)
  deriving DecidableEq, Repr

def MemOperand.mode : MemOperand → Mode
  | .zp _ => .zp | .zpx _ => .zpx | .zpy _ => .zpy
  | .abs _ => .abs | .absx _ => .absx | .absy _ => .absy
  | .indx _ => .indx | .indy _ => .indy

/-- The operand of an instruction in any of the twelve modes. -/
inductive Operand where
  | imm (v : Byte)
  | mem (m : MemOperand)
  | rel (d : Byte)
  | acc
  | imp
  deriving DecidableEq, Repr

def Operand.mode : Operand → Mode
  | .imm _ => .imm
  | .mem m => m.mode
  | .rel _ => .rel
  | .acc => .acc
  | .imp => .imp

/-- What an instruction of class read takes its operand value from (R84, row "read"). -/
inductive Source where
  | imm (v : Byte)
  | mem (m : MemOperand)
  deriving DecidableEq, Repr

def Source.length : Source → Nat
  | .imm _ => Mode.imm.length
  | .mem m => m.mode.length

/-- What a shift or rotate works on (R84, rows "read-modify-write" and "accumulator"; R160). -/
inductive Place where
  | acc
  | mem (m : MemOperand)
  deriving DecidableEq, Repr

def Place.length : Place → Nat
  | .acc => Mode.acc.length
  | .mem m => m.mode.length

/-- One constructor per row of spec/opcode_table.json. The name is the mnemonic, with the mode tag
where the mnemonic has several; the argument is the row's operand byte or word. -/
inductive Instr where
  -- LDA: R111
  | ldaImm (v : Byte)
  | ldaZp (b : Byte)
  | ldaZpx (b : Byte)
  | ldaAbs (w : Addr)
  | ldaAbsx (w : Addr)
  | ldaAbsy (w : Addr)
  | ldaIndx (b : Byte)
  | ldaIndy (b : Byte)
  -- LDX: R112
  | ldxImm (v : Byte)
  | ldxZp (b : Byte)
  | ldxZpy (b : Byte)
  | ldxAbs (w : Addr)
  | ldxAbsy (w : Addr)
  -- LDY: R113
  | ldyImm (v : Byte)
  | ldyZp (b : Byte)
  | ldyZpx (b : Byte)
  | ldyAbs (w : Addr)
  | ldyAbsx (w : Addr)
  -- STA: R114
  | staZp (b : Byte)
  | staZpx (b : Byte)
  | staAbs (w : Addr)
  | staAbsx (w : Addr)
  | staAbsy (w : Addr)
  | staIndx (b : Byte)
  | staIndy (b : Byte)
  -- STX: R115
  | stxZp (b : Byte)
  | stxZpy (b : Byte)
  | stxAbs (w : Addr)
  -- STY: R116
  | styZp (b : Byte)
  | styZpx (b : Byte)
  | styAbs (w : Addr)
  -- TAX: R117
  | tax
  -- TAY: R118
  | tay
  -- TXA: R119
  | txa
  -- TYA: R120
  | tya
  -- TSX: R121
  | tsx
  -- TXS: R122
  | txs
  -- ADC: R132
  | adcImm (v : Byte)
  | adcZp (b : Byte)
  | adcZpx (b : Byte)
  | adcAbs (w : Addr)
  | adcAbsx (w : Addr)
  | adcAbsy (w : Addr)
  | adcIndx (b : Byte)
  | adcIndy (b : Byte)
  -- SBC: R133
  | sbcImm (v : Byte)
  | sbcZp (b : Byte)
  | sbcZpx (b : Byte)
  | sbcAbs (w : Addr)
  | sbcAbsx (w : Addr)
  | sbcAbsy (w : Addr)
  | sbcIndx (b : Byte)
  | sbcIndy (b : Byte)
  -- CMP: R134
  | cmpImm (v : Byte)
  | cmpZp (b : Byte)
  | cmpZpx (b : Byte)
  | cmpAbs (w : Addr)
  | cmpAbsx (w : Addr)
  | cmpAbsy (w : Addr)
  | cmpIndx (b : Byte)
  | cmpIndy (b : Byte)
  -- CPX: R135
  | cpxImm (v : Byte)
  | cpxZp (b : Byte)
  | cpxAbs (w : Addr)
  -- CPY: R136
  | cpyImm (v : Byte)
  | cpyZp (b : Byte)
  | cpyAbs (w : Addr)
  -- INC: R137
  | incZp (b : Byte)
  | incZpx (b : Byte)
  | incAbs (w : Addr)
  | incAbsx (w : Addr)
  -- DEC: R138
  | decZp (b : Byte)
  | decZpx (b : Byte)
  | decAbs (w : Addr)
  | decAbsx (w : Addr)
  -- INX: R139
  | inx
  -- INY: R140
  | iny
  -- DEX: R141
  | dex
  -- DEY: R142
  | dey
  -- AND: R151
  | andImm (v : Byte)
  | andZp (b : Byte)
  | andZpx (b : Byte)
  | andAbs (w : Addr)
  | andAbsx (w : Addr)
  | andAbsy (w : Addr)
  | andIndx (b : Byte)
  | andIndy (b : Byte)
  -- ORA: R152
  | oraImm (v : Byte)
  | oraZp (b : Byte)
  | oraZpx (b : Byte)
  | oraAbs (w : Addr)
  | oraAbsx (w : Addr)
  | oraAbsy (w : Addr)
  | oraIndx (b : Byte)
  | oraIndy (b : Byte)
  -- EOR: R153
  | eorImm (v : Byte)
  | eorZp (b : Byte)
  | eorZpx (b : Byte)
  | eorAbs (w : Addr)
  | eorAbsx (w : Addr)
  | eorAbsy (w : Addr)
  | eorIndx (b : Byte)
  | eorIndy (b : Byte)
  -- BIT: R154
  | bitZp (b : Byte)
  | bitAbs (w : Addr)
  -- ASL: R161
  | aslZp (b : Byte)
  | aslZpx (b : Byte)
  | aslAbs (w : Addr)
  | aslAbsx (w : Addr)
  | aslAcc
  -- LSR: R162
  | lsrZp (b : Byte)
  | lsrZpx (b : Byte)
  | lsrAbs (w : Addr)
  | lsrAbsx (w : Addr)
  | lsrAcc
  -- ROL: R163
  | rolZp (b : Byte)
  | rolZpx (b : Byte)
  | rolAbs (w : Addr)
  | rolAbsx (w : Addr)
  | rolAcc
  -- ROR: R164
  | rorZp (b : Byte)
  | rorZpx (b : Byte)
  | rorAbs (w : Addr)
  | rorAbsx (w : Addr)
  | rorAcc
  -- BCC: R171
  | bcc (d : Byte)
  -- BCS: R172
  | bcs (d : Byte)
  -- BEQ: R173
  | beq (d : Byte)
  -- BMI: R174
  | bmi (d : Byte)
  -- BNE: R175
  | bne (d : Byte)
  -- BPL: R176
  | bpl (d : Byte)
  -- BVC: R177
  | bvc (d : Byte)
  -- BVS: R178
  | bvs (d : Byte)
  -- PHA: R190
  | pha
  -- PLA: R191
  | pla
  -- PHP: R192
  | php
  -- PLP: R193
  | plp
  -- JMP: R201
  | jmp (w : Addr)
  -- JSR: R202
  | jsr (w : Addr)
  -- RTS: R203
  | rts
  -- RTI: R204
  | rti
  -- CLC: R210
  | clc
  -- SEC: R211
  | sec
  -- CLI: R212
  | cli
  -- SEI: R213
  | sei
  -- CLV: R214
  | clv
  -- CLD: R215
  | cld
  -- SED: R216
  | sed
  -- NOP: R217
  | nop
  -- BRK: R218
  | brk
  deriving DecidableEq, Repr

/-- The mnemonic of an instruction's row. -/
def Instr.mnemonic : Instr → Mnemonic
  | .ldaImm _ => .lda
  | .ldaZp _ => .lda
  | .ldaZpx _ => .lda
  | .ldaAbs _ => .lda
  | .ldaAbsx _ => .lda
  | .ldaAbsy _ => .lda
  | .ldaIndx _ => .lda
  | .ldaIndy _ => .lda
  | .ldxImm _ => .ldx
  | .ldxZp _ => .ldx
  | .ldxZpy _ => .ldx
  | .ldxAbs _ => .ldx
  | .ldxAbsy _ => .ldx
  | .ldyImm _ => .ldy
  | .ldyZp _ => .ldy
  | .ldyZpx _ => .ldy
  | .ldyAbs _ => .ldy
  | .ldyAbsx _ => .ldy
  | .staZp _ => .sta
  | .staZpx _ => .sta
  | .staAbs _ => .sta
  | .staAbsx _ => .sta
  | .staAbsy _ => .sta
  | .staIndx _ => .sta
  | .staIndy _ => .sta
  | .stxZp _ => .stx
  | .stxZpy _ => .stx
  | .stxAbs _ => .stx
  | .styZp _ => .sty
  | .styZpx _ => .sty
  | .styAbs _ => .sty
  | .tax => .tax
  | .tay => .tay
  | .txa => .txa
  | .tya => .tya
  | .tsx => .tsx
  | .txs => .txs
  | .adcImm _ => .adc
  | .adcZp _ => .adc
  | .adcZpx _ => .adc
  | .adcAbs _ => .adc
  | .adcAbsx _ => .adc
  | .adcAbsy _ => .adc
  | .adcIndx _ => .adc
  | .adcIndy _ => .adc
  | .sbcImm _ => .sbc
  | .sbcZp _ => .sbc
  | .sbcZpx _ => .sbc
  | .sbcAbs _ => .sbc
  | .sbcAbsx _ => .sbc
  | .sbcAbsy _ => .sbc
  | .sbcIndx _ => .sbc
  | .sbcIndy _ => .sbc
  | .cmpImm _ => .cmp
  | .cmpZp _ => .cmp
  | .cmpZpx _ => .cmp
  | .cmpAbs _ => .cmp
  | .cmpAbsx _ => .cmp
  | .cmpAbsy _ => .cmp
  | .cmpIndx _ => .cmp
  | .cmpIndy _ => .cmp
  | .cpxImm _ => .cpx
  | .cpxZp _ => .cpx
  | .cpxAbs _ => .cpx
  | .cpyImm _ => .cpy
  | .cpyZp _ => .cpy
  | .cpyAbs _ => .cpy
  | .incZp _ => .inc
  | .incZpx _ => .inc
  | .incAbs _ => .inc
  | .incAbsx _ => .inc
  | .decZp _ => .dec
  | .decZpx _ => .dec
  | .decAbs _ => .dec
  | .decAbsx _ => .dec
  | .inx => .inx
  | .iny => .iny
  | .dex => .dex
  | .dey => .dey
  | .andImm _ => .and
  | .andZp _ => .and
  | .andZpx _ => .and
  | .andAbs _ => .and
  | .andAbsx _ => .and
  | .andAbsy _ => .and
  | .andIndx _ => .and
  | .andIndy _ => .and
  | .oraImm _ => .ora
  | .oraZp _ => .ora
  | .oraZpx _ => .ora
  | .oraAbs _ => .ora
  | .oraAbsx _ => .ora
  | .oraAbsy _ => .ora
  | .oraIndx _ => .ora
  | .oraIndy _ => .ora
  | .eorImm _ => .eor
  | .eorZp _ => .eor
  | .eorZpx _ => .eor
  | .eorAbs _ => .eor
  | .eorAbsx _ => .eor
  | .eorAbsy _ => .eor
  | .eorIndx _ => .eor
  | .eorIndy _ => .eor
  | .bitZp _ => .bit
  | .bitAbs _ => .bit
  | .aslZp _ => .asl
  | .aslZpx _ => .asl
  | .aslAbs _ => .asl
  | .aslAbsx _ => .asl
  | .aslAcc => .asl
  | .lsrZp _ => .lsr
  | .lsrZpx _ => .lsr
  | .lsrAbs _ => .lsr
  | .lsrAbsx _ => .lsr
  | .lsrAcc => .lsr
  | .rolZp _ => .rol
  | .rolZpx _ => .rol
  | .rolAbs _ => .rol
  | .rolAbsx _ => .rol
  | .rolAcc => .rol
  | .rorZp _ => .ror
  | .rorZpx _ => .ror
  | .rorAbs _ => .ror
  | .rorAbsx _ => .ror
  | .rorAcc => .ror
  | .bcc _ => .bcc
  | .bcs _ => .bcs
  | .beq _ => .beq
  | .bmi _ => .bmi
  | .bne _ => .bne
  | .bpl _ => .bpl
  | .bvc _ => .bvc
  | .bvs _ => .bvs
  | .pha => .pha
  | .pla => .pla
  | .php => .php
  | .plp => .plp
  | .jmp _ => .jmp
  | .jsr _ => .jsr
  | .rts => .rts
  | .rti => .rti
  | .clc => .clc
  | .sec => .sec
  | .cli => .cli
  | .sei => .sei
  | .clv => .clv
  | .cld => .cld
  | .sed => .sed
  | .nop => .nop
  | .brk => .brk

/-- The operand of an instruction, in its row's mode. -/
def Instr.operand : Instr → Operand
  | .ldaImm v => .imm v
  | .ldaZp b => .mem (.zp b)
  | .ldaZpx b => .mem (.zpx b)
  | .ldaAbs w => .mem (.abs w)
  | .ldaAbsx w => .mem (.absx w)
  | .ldaAbsy w => .mem (.absy w)
  | .ldaIndx b => .mem (.indx b)
  | .ldaIndy b => .mem (.indy b)
  | .ldxImm v => .imm v
  | .ldxZp b => .mem (.zp b)
  | .ldxZpy b => .mem (.zpy b)
  | .ldxAbs w => .mem (.abs w)
  | .ldxAbsy w => .mem (.absy w)
  | .ldyImm v => .imm v
  | .ldyZp b => .mem (.zp b)
  | .ldyZpx b => .mem (.zpx b)
  | .ldyAbs w => .mem (.abs w)
  | .ldyAbsx w => .mem (.absx w)
  | .staZp b => .mem (.zp b)
  | .staZpx b => .mem (.zpx b)
  | .staAbs w => .mem (.abs w)
  | .staAbsx w => .mem (.absx w)
  | .staAbsy w => .mem (.absy w)
  | .staIndx b => .mem (.indx b)
  | .staIndy b => .mem (.indy b)
  | .stxZp b => .mem (.zp b)
  | .stxZpy b => .mem (.zpy b)
  | .stxAbs w => .mem (.abs w)
  | .styZp b => .mem (.zp b)
  | .styZpx b => .mem (.zpx b)
  | .styAbs w => .mem (.abs w)
  | .tax => .imp
  | .tay => .imp
  | .txa => .imp
  | .tya => .imp
  | .tsx => .imp
  | .txs => .imp
  | .adcImm v => .imm v
  | .adcZp b => .mem (.zp b)
  | .adcZpx b => .mem (.zpx b)
  | .adcAbs w => .mem (.abs w)
  | .adcAbsx w => .mem (.absx w)
  | .adcAbsy w => .mem (.absy w)
  | .adcIndx b => .mem (.indx b)
  | .adcIndy b => .mem (.indy b)
  | .sbcImm v => .imm v
  | .sbcZp b => .mem (.zp b)
  | .sbcZpx b => .mem (.zpx b)
  | .sbcAbs w => .mem (.abs w)
  | .sbcAbsx w => .mem (.absx w)
  | .sbcAbsy w => .mem (.absy w)
  | .sbcIndx b => .mem (.indx b)
  | .sbcIndy b => .mem (.indy b)
  | .cmpImm v => .imm v
  | .cmpZp b => .mem (.zp b)
  | .cmpZpx b => .mem (.zpx b)
  | .cmpAbs w => .mem (.abs w)
  | .cmpAbsx w => .mem (.absx w)
  | .cmpAbsy w => .mem (.absy w)
  | .cmpIndx b => .mem (.indx b)
  | .cmpIndy b => .mem (.indy b)
  | .cpxImm v => .imm v
  | .cpxZp b => .mem (.zp b)
  | .cpxAbs w => .mem (.abs w)
  | .cpyImm v => .imm v
  | .cpyZp b => .mem (.zp b)
  | .cpyAbs w => .mem (.abs w)
  | .incZp b => .mem (.zp b)
  | .incZpx b => .mem (.zpx b)
  | .incAbs w => .mem (.abs w)
  | .incAbsx w => .mem (.absx w)
  | .decZp b => .mem (.zp b)
  | .decZpx b => .mem (.zpx b)
  | .decAbs w => .mem (.abs w)
  | .decAbsx w => .mem (.absx w)
  | .inx => .imp
  | .iny => .imp
  | .dex => .imp
  | .dey => .imp
  | .andImm v => .imm v
  | .andZp b => .mem (.zp b)
  | .andZpx b => .mem (.zpx b)
  | .andAbs w => .mem (.abs w)
  | .andAbsx w => .mem (.absx w)
  | .andAbsy w => .mem (.absy w)
  | .andIndx b => .mem (.indx b)
  | .andIndy b => .mem (.indy b)
  | .oraImm v => .imm v
  | .oraZp b => .mem (.zp b)
  | .oraZpx b => .mem (.zpx b)
  | .oraAbs w => .mem (.abs w)
  | .oraAbsx w => .mem (.absx w)
  | .oraAbsy w => .mem (.absy w)
  | .oraIndx b => .mem (.indx b)
  | .oraIndy b => .mem (.indy b)
  | .eorImm v => .imm v
  | .eorZp b => .mem (.zp b)
  | .eorZpx b => .mem (.zpx b)
  | .eorAbs w => .mem (.abs w)
  | .eorAbsx w => .mem (.absx w)
  | .eorAbsy w => .mem (.absy w)
  | .eorIndx b => .mem (.indx b)
  | .eorIndy b => .mem (.indy b)
  | .bitZp b => .mem (.zp b)
  | .bitAbs w => .mem (.abs w)
  | .aslZp b => .mem (.zp b)
  | .aslZpx b => .mem (.zpx b)
  | .aslAbs w => .mem (.abs w)
  | .aslAbsx w => .mem (.absx w)
  | .aslAcc => .acc
  | .lsrZp b => .mem (.zp b)
  | .lsrZpx b => .mem (.zpx b)
  | .lsrAbs w => .mem (.abs w)
  | .lsrAbsx w => .mem (.absx w)
  | .lsrAcc => .acc
  | .rolZp b => .mem (.zp b)
  | .rolZpx b => .mem (.zpx b)
  | .rolAbs w => .mem (.abs w)
  | .rolAbsx w => .mem (.absx w)
  | .rolAcc => .acc
  | .rorZp b => .mem (.zp b)
  | .rorZpx b => .mem (.zpx b)
  | .rorAbs w => .mem (.abs w)
  | .rorAbsx w => .mem (.absx w)
  | .rorAcc => .acc
  | .bcc d => .rel d
  | .bcs d => .rel d
  | .beq d => .rel d
  | .bmi d => .rel d
  | .bne d => .rel d
  | .bpl d => .rel d
  | .bvc d => .rel d
  | .bvs d => .rel d
  | .pha => .imp
  | .pla => .imp
  | .php => .imp
  | .plp => .imp
  | .jmp w => .mem (.abs w)
  | .jsr w => .mem (.abs w)
  | .rts => .imp
  | .rti => .imp
  | .clc => .imp
  | .sec => .imp
  | .cli => .imp
  | .sei => .imp
  | .clv => .imp
  | .cld => .imp
  | .sed => .imp
  | .nop => .imp
  | .brk => .imp

/-- An instruction's length in bytes (R56). -/
def Instr.length (i : Instr) : Nat := i.operand.mode.length

end Sys2Proof
end

