-- ==== Sys2Proof/Machine/Operands.lean ====
section
/-! DEFINITION. The addressing-mode resolver (spec/40_addressing_modes.md R70 to R82) and the use the
handlers make of its result (R84). It reads X, Y, the configuration and memory, and writes nothing;
an operand's bytes were taken from `pc0 +16 1` and `pc0 +16 2` when the instruction was decoded. -/

namespace Sys2Proof.Machine

/-- The 16-bit pointer whose low byte is at `loAt` and whose high byte is at `hiAt` (R32). -/
def State.pointer (s : State) (loAt hiAt : Addr) : Addr := hiLo (s.load hiAt) (s.load loAt)

/-- The effective address of an operand (R72 to R79). Zero-page sums wrap in 8 bits, 16-bit sums
modulo 65536. -/
def effAddr (s : State) : MemOperand → Addr
  | .zp b => zext16 b
  | .zpx b => zext16 (b + s.x)
  | .zpy b => zext16 (b + s.y)
  | .abs w => w
  | .absx w => w + zext16 s.x
  | .absy w => w + zext16 s.y
  | .indx b =>
    let ptr := b + s.x
    s.pointer (zext16 ptr) (zext16 (ptr + 1))
  | .indy b =>
    let hiAt := if s.cfg.indyPtrZpWrap then zext16 (b + 1) else zext16 b + 1
    s.pointer (zext16 b) hiAt + zext16 s.y

/-- The operand value `M` of class read (R84). -/
def sourceValue (s : State) : Source → Byte
  | .imm v => v
  | .mem m => s.load (effAddr s m)

/-- Where a shift or rotate reads and writes, resolved once (R84, R103). -/
inductive Target where
  | accumulator
  | byte (ea : Addr)
  deriving DecidableEq, Repr

def resolvePlace (s : State) : Place → Target
  | .acc => .accumulator
  | .mem m => .byte (effAddr s m)

def State.loadTarget (s : State) : Target → Byte
  | .accumulator => s.a
  | .byte ea => s.load ea

def State.storeTarget (s : State) (t : Target) (v : Byte) : State :=
  match t with
  | .accumulator => s.setA v
  | .byte ea => s.store ea v

end Sys2Proof.Machine
end

