-- ==== Sys2Proof/Machine/Arithmetic.lean ====
section
/-! DEFINITION. Arithmetic, compare, increment and decrement: spec/43_arithmetic.md R130 to R142. Always
binary: the D flag is read by none of them (R131). -/

namespace Sys2Proof.Machine

/-- Writes the result of an addition or subtraction back: A, C, V, N and Z (R132, R133). -/
def State.setSum (s : State) (r : Byte × Bool × Bool) : State :=
  (((s.setA r.1).setFlag .c r.2.1).setFlag .v r.2.2).setNZ r.1

/-- Writes the N, Z and C of a compare (R134 to R136). -/
def State.setCompare (s : State) (r : Bool × Bool × Bool) : State :=
  ((s.setFlag .n r.1).setFlag .z r.2.1).setFlag .c r.2.2

/-- ADC (R132): V comes from the A of before the instruction. -/
def adcOp (o : Source) (s : State) : Result :=
  let m := sourceValue s o
  .next ((s.advance o.length).setSum (addWithCarry s.a m (s.flag .c)))

/-- SBC (R133). -/
def sbcOp (o : Source) (s : State) : Result :=
  let m := sourceValue s o
  .next ((s.advance o.length).setSum (subWithBorrow s.a m (s.flag .c)))

/-- CMP (R134). -/
def cmpOp (o : Source) (s : State) : Result :=
  let m := sourceValue s o
  .next ((s.advance o.length).setCompare (compareBytes s.a m))

/-- CPX (R135). -/
def cpxOp (o : Source) (s : State) : Result :=
  let m := sourceValue s o
  .next ((s.advance o.length).setCompare (compareBytes s.x m))

/-- CPY (R136). -/
def cpyOp (o : Source) (s : State) : Result :=
  let m := sourceValue s o
  .next ((s.advance o.length).setCompare (compareBytes s.y m))

/-- INC (R137): one read and one write of the same address. -/
def incOp (m : MemOperand) (s : State) : Result :=
  let ea := effAddr s m
  let r := s.load ea + 1
  .next (((s.advance m.mode.length).store ea r).setNZ r)

/-- DEC (R138). -/
def decOp (m : MemOperand) (s : State) : Result :=
  let ea := effAddr s m
  let r := s.load ea - 1
  .next (((s.advance m.mode.length).store ea r).setNZ r)

/-- INX (R139). -/
def execInx (s : State) : Result := .next (((s.advance 1).setX (s.x + 1)).setNZ (s.x + 1))

/-- INY (R140). -/
def execIny (s : State) : Result := .next (((s.advance 1).setY (s.y + 1)).setNZ (s.y + 1))

/-- DEX (R141). -/
def execDex (s : State) : Result := .next (((s.advance 1).setX (s.x - 1)).setNZ (s.x - 1))

/-- DEY (R142). -/
def execDey (s : State) : Result := .next (((s.advance 1).setY (s.y - 1)).setNZ (s.y - 1))

/-! One definition per row of spec/opcode_table.json. -/

def execAdcImm (v : Byte) (s : State) : Result := adcOp (.imm v) s
def execAdcZp (b : Byte) (s : State) : Result := adcOp (.mem (.zp b)) s
def execAdcZpx (b : Byte) (s : State) : Result := adcOp (.mem (.zpx b)) s
def execAdcAbs (w : Addr) (s : State) : Result := adcOp (.mem (.abs w)) s
def execAdcAbsx (w : Addr) (s : State) : Result := adcOp (.mem (.absx w)) s
def execAdcAbsy (w : Addr) (s : State) : Result := adcOp (.mem (.absy w)) s
def execAdcIndx (b : Byte) (s : State) : Result := adcOp (.mem (.indx b)) s
def execAdcIndy (b : Byte) (s : State) : Result := adcOp (.mem (.indy b)) s

def execSbcImm (v : Byte) (s : State) : Result := sbcOp (.imm v) s
def execSbcZp (b : Byte) (s : State) : Result := sbcOp (.mem (.zp b)) s
def execSbcZpx (b : Byte) (s : State) : Result := sbcOp (.mem (.zpx b)) s
def execSbcAbs (w : Addr) (s : State) : Result := sbcOp (.mem (.abs w)) s
def execSbcAbsx (w : Addr) (s : State) : Result := sbcOp (.mem (.absx w)) s
def execSbcAbsy (w : Addr) (s : State) : Result := sbcOp (.mem (.absy w)) s
def execSbcIndx (b : Byte) (s : State) : Result := sbcOp (.mem (.indx b)) s
def execSbcIndy (b : Byte) (s : State) : Result := sbcOp (.mem (.indy b)) s

def execCmpImm (v : Byte) (s : State) : Result := cmpOp (.imm v) s
def execCmpZp (b : Byte) (s : State) : Result := cmpOp (.mem (.zp b)) s
def execCmpZpx (b : Byte) (s : State) : Result := cmpOp (.mem (.zpx b)) s
def execCmpAbs (w : Addr) (s : State) : Result := cmpOp (.mem (.abs w)) s
def execCmpAbsx (w : Addr) (s : State) : Result := cmpOp (.mem (.absx w)) s
def execCmpAbsy (w : Addr) (s : State) : Result := cmpOp (.mem (.absy w)) s
def execCmpIndx (b : Byte) (s : State) : Result := cmpOp (.mem (.indx b)) s
def execCmpIndy (b : Byte) (s : State) : Result := cmpOp (.mem (.indy b)) s

def execCpxImm (v : Byte) (s : State) : Result := cpxOp (.imm v) s
def execCpxZp (b : Byte) (s : State) : Result := cpxOp (.mem (.zp b)) s
def execCpxAbs (w : Addr) (s : State) : Result := cpxOp (.mem (.abs w)) s

def execCpyImm (v : Byte) (s : State) : Result := cpyOp (.imm v) s
def execCpyZp (b : Byte) (s : State) : Result := cpyOp (.mem (.zp b)) s
def execCpyAbs (w : Addr) (s : State) : Result := cpyOp (.mem (.abs w)) s

def execIncZp (b : Byte) (s : State) : Result := incOp (.zp b) s
def execIncZpx (b : Byte) (s : State) : Result := incOp (.zpx b) s
def execIncAbs (w : Addr) (s : State) : Result := incOp (.abs w) s
def execIncAbsx (w : Addr) (s : State) : Result := incOp (.absx w) s

def execDecZp (b : Byte) (s : State) : Result := decOp (.zp b) s
def execDecZpx (b : Byte) (s : State) : Result := decOp (.zpx b) s
def execDecAbs (w : Addr) (s : State) : Result := decOp (.abs w) s
def execDecAbsx (w : Addr) (s : State) : Result := decOp (.absx w) s

end Sys2Proof.Machine
end

