-- ==== Sys2Proof/Machine/Branch.lean ====
section
/-! DEFINITION. Conditional branches: spec/46_branch.md R170 to R178. -/

namespace Sys2Proof.Machine

/-- The common rule (R170): PC is advanced past the branch, then, if the condition holds, the signed
offset is added modulo 65536. No flag is written. -/
def branchIf (cond : Bool) (d : Byte) (s : State) : Result :=
  let s1 := s.advance 2
  .next (if cond then s1.setPC (s1.pc + sext16 d) else s1)

/-- BCC (R171). -/
def execBcc (d : Byte) (s : State) : Result := branchIf (!s.flag .c) d s

/-- BCS (R172). -/
def execBcs (d : Byte) (s : State) : Result := branchIf (s.flag .c) d s

/-- BEQ (R173). -/
def execBeq (d : Byte) (s : State) : Result := branchIf (s.flag .z) d s

/-- BMI (R174). -/
def execBmi (d : Byte) (s : State) : Result := branchIf (s.flag .n) d s

/-- BNE (R175). -/
def execBne (d : Byte) (s : State) : Result := branchIf (!s.flag .z) d s

/-- BPL (R176). -/
def execBpl (d : Byte) (s : State) : Result := branchIf (!s.flag .n) d s

/-- BVC (R177). -/
def execBvc (d : Byte) (s : State) : Result := branchIf (!s.flag .v) d s

/-- BVS (R178). -/
def execBvs (d : Byte) (s : State) : Result := branchIf (s.flag .v) d s

end Sys2Proof.Machine
end

