-- ==== Sys2Proof/Machine/FlagMisc.lean ====
section
/-! DEFINITION. Flag instructions, NOP and the halt sentinel: spec/49_flag_and_misc.md R209 to R218. -/

namespace Sys2Proof.Machine

/-- CLC (R210). -/
def execClc (s : State) : Result := .next ((s.advance 1).setFlag .c false)

/-- SEC (R211). -/
def execSec (s : State) : Result := .next ((s.advance 1).setFlag .c true)

/-- CLI (R212). -/
def execCli (s : State) : Result := .next ((s.advance 1).setFlag .i false)

/-- SEI (R213). -/
def execSei (s : State) : Result := .next ((s.advance 1).setFlag .i true)

/-- CLV (R214). -/
def execClv (s : State) : Result := .next ((s.advance 1).setFlag .v false)

/-- CLD (R215). -/
def execCld (s : State) : Result := .next ((s.advance 1).setFlag .d false)

/-- SED (R216). -/
def execSed (s : State) : Result := .next ((s.advance 1).setFlag .d true)

/-- NOP (R217). -/
def execNop (s : State) : Result := .next (s.advance 1)

/-- Opcode 0x00, the halt sentinel (R218): the step ends in stage 2, so PC is not advanced and the
result is `Halted`; a further step halts again (R231, R236; log 6). -/
def execBrk (s : State) : Result := .next (halt s)

end Sys2Proof.Machine
end

