-- ==== Sys2Proof/Machine/Jump.lean ====
section
/-! DEFINITION. Jump, subroutine and return: spec/48_jump_subroutine.md R200 to R206, and the optional
extension of spec/93_implementation_defined.md U8. -/

namespace Sys2Proof.Machine

/-- JMP (R201). -/
def execJmp (w : Addr) (s : State) : Result := .next ((s.advance 3).setPC w)

/-- JSR (R202): PC is advanced by length - 1 = 2 (R104), so the address pushed, high byte first, is
that of the instruction's last byte. The target was read before the pushes. -/
def execJsr (w : Addr) (s : State) : Result :=
  let s1 := s.advance 2
  .next ((push (lo8 s1.pc) (push (hi8 s1.pc) s1)).setPC w)

/-- RTS (R203): low byte, high byte, plus 1. -/
def execRts (s : State) : Result :=
  let lo := pull (s.advance 1)
  let hi := pull lo.2
  .next (hi.2.setPC (hiLo hi.1 lo.1 + 1))

/-- RTI (R204): P, then the low and the high byte of PC, plus `RTI_PC_INCREMENT`. -/
def execRti (s : State) : Result :=
  let st := pull (s.advance 1)
  let lo := pull (st.2.setStatus st.1)
  let hi := pull lo.2
  .next (hi.2.setPC (hiLo hi.1 lo.1 + if s.cfg.rtiPcIncrement then 1 else 0))

/-- The extension U8, JMP absolute-indirect: no row of the table and no `Instr` (log 4). The operand
is the address of the target's low byte; the high byte is read in the same page, or, in the variant,
at the next address (log 5). -/
def jmpIndirect (ptr : Addr) (s : State) : State :=
  let hiAt := if s.cfg.jmpIndPageWrap then hiLo (hi8 ptr) (lo8 ptr + 1) else ptr + 1
  (s.advance 3).setPC (hiLo (s.load hiAt) (s.load ptr))

end Sys2Proof.Machine
end

