-- ==== Sys2Proof/Machine/LoadStore.lean ====
section
/-! DEFINITION. Load, store and register transfer: spec/42_load_store_transfer.md R111 to R122. Each meaning
runs stages 3 to 5 of the step (R100): operands are resolved in the state before PC is advanced (log 12). -/

namespace Sys2Proof.Machine

/-- LDA (R111). -/
def ldaOp (o : Source) (s : State) : Result :=
  let m := sourceValue s o
  .next (((s.advance o.length).setA m).setNZ m)

/-- LDX (R112). -/
def ldxOp (o : Source) (s : State) : Result :=
  let m := sourceValue s o
  .next (((s.advance o.length).setX m).setNZ m)

/-- LDY (R113). -/
def ldyOp (o : Source) (s : State) : Result :=
  let m := sourceValue s o
  .next (((s.advance o.length).setY m).setNZ m)

/-- STA (R114): the byte at the address is not read, no flag is written. -/
def staOp (m : MemOperand) (s : State) : Result :=
  .next ((s.advance m.mode.length).store (effAddr s m) s.a)

/-- STX (R115). -/
def stxOp (m : MemOperand) (s : State) : Result :=
  .next ((s.advance m.mode.length).store (effAddr s m) s.x)

/-- STY (R116). -/
def styOp (m : MemOperand) (s : State) : Result :=
  .next ((s.advance m.mode.length).store (effAddr s m) s.y)

/-- TAX (R117). -/
def execTax (s : State) : Result := .next (((s.advance 1).setX s.a).setNZ s.a)

/-- TAY (R118). -/
def execTay (s : State) : Result := .next (((s.advance 1).setY s.a).setNZ s.a)

/-- TXA (R119). -/
def execTxa (s : State) : Result := .next (((s.advance 1).setA s.x).setNZ s.x)

/-- TYA (R120). -/
def execTya (s : State) : Result := .next (((s.advance 1).setA s.y).setNZ s.y)

/-- TSX (R121): the 8-bit offset is moved. -/
def execTsx (s : State) : Result := .next (((s.advance 1).setX s.sp).setNZ s.sp)

/-- TXS (R122): the one transfer that writes no flag. -/
def execTxs (s : State) : Result := .next ((s.advance 1).setSP s.x)

/-! One definition per row of spec/opcode_table.json. -/

def execLdaImm (v : Byte) (s : State) : Result := ldaOp (.imm v) s
def execLdaZp (b : Byte) (s : State) : Result := ldaOp (.mem (.zp b)) s
def execLdaZpx (b : Byte) (s : State) : Result := ldaOp (.mem (.zpx b)) s
def execLdaAbs (w : Addr) (s : State) : Result := ldaOp (.mem (.abs w)) s
def execLdaAbsx (w : Addr) (s : State) : Result := ldaOp (.mem (.absx w)) s
def execLdaAbsy (w : Addr) (s : State) : Result := ldaOp (.mem (.absy w)) s
def execLdaIndx (b : Byte) (s : State) : Result := ldaOp (.mem (.indx b)) s
def execLdaIndy (b : Byte) (s : State) : Result := ldaOp (.mem (.indy b)) s

def execLdxImm (v : Byte) (s : State) : Result := ldxOp (.imm v) s
def execLdxZp (b : Byte) (s : State) : Result := ldxOp (.mem (.zp b)) s
def execLdxZpy (b : Byte) (s : State) : Result := ldxOp (.mem (.zpy b)) s
def execLdxAbs (w : Addr) (s : State) : Result := ldxOp (.mem (.abs w)) s
def execLdxAbsy (w : Addr) (s : State) : Result := ldxOp (.mem (.absy w)) s

def execLdyImm (v : Byte) (s : State) : Result := ldyOp (.imm v) s
def execLdyZp (b : Byte) (s : State) : Result := ldyOp (.mem (.zp b)) s
def execLdyZpx (b : Byte) (s : State) : Result := ldyOp (.mem (.zpx b)) s
def execLdyAbs (w : Addr) (s : State) : Result := ldyOp (.mem (.abs w)) s
def execLdyAbsx (w : Addr) (s : State) : Result := ldyOp (.mem (.absx w)) s

def execStaZp (b : Byte) (s : State) : Result := staOp (.zp b) s
def execStaZpx (b : Byte) (s : State) : Result := staOp (.zpx b) s
def execStaAbs (w : Addr) (s : State) : Result := staOp (.abs w) s
def execStaAbsx (w : Addr) (s : State) : Result := staOp (.absx w) s
def execStaAbsy (w : Addr) (s : State) : Result := staOp (.absy w) s
def execStaIndx (b : Byte) (s : State) : Result := staOp (.indx b) s
def execStaIndy (b : Byte) (s : State) : Result := staOp (.indy b) s

def execStxZp (b : Byte) (s : State) : Result := stxOp (.zp b) s
def execStxZpy (b : Byte) (s : State) : Result := stxOp (.zpy b) s
def execStxAbs (w : Addr) (s : State) : Result := stxOp (.abs w) s

def execStyZp (b : Byte) (s : State) : Result := styOp (.zp b) s
def execStyZpx (b : Byte) (s : State) : Result := styOp (.zpx b) s
def execStyAbs (w : Addr) (s : State) : Result := styOp (.abs w) s

end Sys2Proof.Machine
end

