-- ==== Sys2Proof/Machine/Logic.lean ====
section
/-! DEFINITION. Logic: spec/44_logic.md R150 to R154. -/

namespace Sys2Proof.Machine

/-- AND (R151). -/
def andOp (o : Source) (s : State) : Result :=
  let r := s.a &&& sourceValue s o
  .next (((s.advance o.length).setA r).setNZ r)

/-- ORA (R152). -/
def oraOp (o : Source) (s : State) : Result :=
  let r := s.a ||| sourceValue s o
  .next (((s.advance o.length).setA r).setNZ r)

/-- EOR (R153). -/
def eorOp (o : Source) (s : State) : Result :=
  let r := s.a ^^^ sourceValue s o
  .next (((s.advance o.length).setA r).setNZ r)

/-- BIT (R154): Z from `A & M`, N and V from bits 7 and 6 of M itself. -/
def bitOp (o : Source) (s : State) : Result :=
  let m := sourceValue s o
  .next ((((s.advance o.length).setFlag .z (s.a &&& m == 0x00#8)).setFlag .n (m.getLsbD 7)).setFlag .v
    (m.getLsbD 6))

/-! One definition per row of spec/opcode_table.json. -/

def execAndImm (v : Byte) (s : State) : Result := andOp (.imm v) s
def execAndZp (b : Byte) (s : State) : Result := andOp (.mem (.zp b)) s
def execAndZpx (b : Byte) (s : State) : Result := andOp (.mem (.zpx b)) s
def execAndAbs (w : Addr) (s : State) : Result := andOp (.mem (.abs w)) s
def execAndAbsx (w : Addr) (s : State) : Result := andOp (.mem (.absx w)) s
def execAndAbsy (w : Addr) (s : State) : Result := andOp (.mem (.absy w)) s
def execAndIndx (b : Byte) (s : State) : Result := andOp (.mem (.indx b)) s
def execAndIndy (b : Byte) (s : State) : Result := andOp (.mem (.indy b)) s

def execOraImm (v : Byte) (s : State) : Result := oraOp (.imm v) s
def execOraZp (b : Byte) (s : State) : Result := oraOp (.mem (.zp b)) s
def execOraZpx (b : Byte) (s : State) : Result := oraOp (.mem (.zpx b)) s
def execOraAbs (w : Addr) (s : State) : Result := oraOp (.mem (.abs w)) s
def execOraAbsx (w : Addr) (s : State) : Result := oraOp (.mem (.absx w)) s
def execOraAbsy (w : Addr) (s : State) : Result := oraOp (.mem (.absy w)) s
def execOraIndx (b : Byte) (s : State) : Result := oraOp (.mem (.indx b)) s
def execOraIndy (b : Byte) (s : State) : Result := oraOp (.mem (.indy b)) s

def execEorImm (v : Byte) (s : State) : Result := eorOp (.imm v) s
def execEorZp (b : Byte) (s : State) : Result := eorOp (.mem (.zp b)) s
def execEorZpx (b : Byte) (s : State) : Result := eorOp (.mem (.zpx b)) s
def execEorAbs (w : Addr) (s : State) : Result := eorOp (.mem (.abs w)) s
def execEorAbsx (w : Addr) (s : State) : Result := eorOp (.mem (.absx w)) s
def execEorAbsy (w : Addr) (s : State) : Result := eorOp (.mem (.absy w)) s
def execEorIndx (b : Byte) (s : State) : Result := eorOp (.mem (.indx b)) s
def execEorIndy (b : Byte) (s : State) : Result := eorOp (.mem (.indy b)) s

def execBitZp (b : Byte) (s : State) : Result := bitOp (.mem (.zp b)) s
def execBitAbs (w : Addr) (s : State) : Result := bitOp (.mem (.abs w)) s

end Sys2Proof.Machine
end

