-- ==== Sys2Proof/Machine/Shift.lean ====
section
/-! DEFINITION. Shift and rotate, on A or on memory: spec/45_shift_rotate.md R160 to R164. -/

namespace Sys2Proof.Machine

/-- The common form of R160: read the operand, shift it with the old carry at hand, write the result
back to the same place, then C and N, Z. -/
def shiftWith (f : Byte → Bool → Byte × Bool) (o : Place) (s : State) : Result :=
  let place := resolvePlace s o
  let r := f (s.loadTarget place) (s.flag .c)
  .next ((((s.advance o.length).storeTarget place r.1).setFlag .c r.2).setNZ r.1)

/-- ASL (R161): the incoming carry is not used. -/
def aslOp (o : Place) (s : State) : Result := shiftWith (fun m _ => asl m) o s

/-- LSR (R162): the incoming carry is not used. -/
def lsrOp (o : Place) (s : State) : Result := shiftWith (fun m _ => lsr m) o s

/-- ROL (R163). -/
def rolOp (o : Place) (s : State) : Result := shiftWith rol o s

/-- ROR (R164). -/
def rorOp (o : Place) (s : State) : Result := shiftWith ror o s

/-! One definition per row of spec/opcode_table.json. -/

def execAslZp (b : Byte) (s : State) : Result := aslOp (.mem (.zp b)) s
def execAslZpx (b : Byte) (s : State) : Result := aslOp (.mem (.zpx b)) s
def execAslAbs (w : Addr) (s : State) : Result := aslOp (.mem (.abs w)) s
def execAslAbsx (w : Addr) (s : State) : Result := aslOp (.mem (.absx w)) s
def execAslAcc (s : State) : Result := aslOp .acc s

def execLsrZp (b : Byte) (s : State) : Result := lsrOp (.mem (.zp b)) s
def execLsrZpx (b : Byte) (s : State) : Result := lsrOp (.mem (.zpx b)) s
def execLsrAbs (w : Addr) (s : State) : Result := lsrOp (.mem (.abs w)) s
def execLsrAbsx (w : Addr) (s : State) : Result := lsrOp (.mem (.absx w)) s
def execLsrAcc (s : State) : Result := lsrOp .acc s

def execRolZp (b : Byte) (s : State) : Result := rolOp (.mem (.zp b)) s
def execRolZpx (b : Byte) (s : State) : Result := rolOp (.mem (.zpx b)) s
def execRolAbs (w : Addr) (s : State) : Result := rolOp (.mem (.abs w)) s
def execRolAbsx (w : Addr) (s : State) : Result := rolOp (.mem (.absx w)) s
def execRolAcc (s : State) : Result := rolOp .acc s

def execRorZp (b : Byte) (s : State) : Result := rorOp (.mem (.zp b)) s
def execRorZpx (b : Byte) (s : State) : Result := rorOp (.mem (.zpx b)) s
def execRorAbs (w : Addr) (s : State) : Result := rorOp (.mem (.abs w)) s
def execRorAbsx (w : Addr) (s : State) : Result := rorOp (.mem (.absx w)) s
def execRorAcc (s : State) : Result := rorOp .acc s

end Sys2Proof.Machine
end

