-- ==== Sys2Proof/Machine/Stack.lean ====
section
/-! DEFINITION. The stack instructions: spec/47_stack.md R190 to R193, over `push` and `pull` (R185, R186). -/

namespace Sys2Proof.Machine

/-- PHA (R190). -/
def execPha (s : State) : Result := .next (push s.a (s.advance 1))

/-- PLA (R191). -/
def execPla (s : State) : Result :=
  let r := pull (s.advance 1)
  .next ((r.2.setA r.1).setNZ r.1)

/-- PHP (R192): the byte pushed is P exactly as it stands. -/
def execPhp (s : State) : Result := .next (push s.p (s.advance 1))

/-- PLP (R193): bits 5 and 4 of the pulled byte are ignored. -/
def execPlp (s : State) : Result :=
  let r := pull (s.advance 1)
  .next (r.2.setStatus r.1)

end Sys2Proof.Machine
end

