-- ==== Sys2Proof/WellFormed.lean ====
section
/-! DEFINITION. Which mnemonic exists in which addressing mode: the table of spec/30_encoding.md R54,
by mnemonic. Operand bytes need no check: "every value 0x00 to 0xFF of `b1` and `b2` is legal in
every format" (R61), and the operand types hold nothing else. -/

namespace Sys2Proof

/-- The mode tags a mnemonic has an opcode byte for (R54). -/
def Mnemonic.modes : Mnemonic → List Mode
  | .lda => [.imm, .zp, .zpx, .abs, .absx, .absy, .indx, .indy]
  | .ldx => [.imm, .zp, .zpy, .abs, .absy]
  | .ldy => [.imm, .zp, .zpx, .abs, .absx]
  | .sta => [.zp, .zpx, .abs, .absx, .absy, .indx, .indy]
  | .stx => [.zp, .zpy, .abs]
  | .sty => [.zp, .zpx, .abs]
  | .tax => [.imp]
  | .tay => [.imp]
  | .txa => [.imp]
  | .tya => [.imp]
  | .tsx => [.imp]
  | .txs => [.imp]
  | .adc => [.imm, .zp, .zpx, .abs, .absx, .absy, .indx, .indy]
  | .sbc => [.imm, .zp, .zpx, .abs, .absx, .absy, .indx, .indy]
  | .cmp => [.imm, .zp, .zpx, .abs, .absx, .absy, .indx, .indy]
  | .cpx => [.imm, .zp, .abs]
  | .cpy => [.imm, .zp, .abs]
  | .inc => [.zp, .zpx, .abs, .absx]
  | .dec => [.zp, .zpx, .abs, .absx]
  | .inx => [.imp]
  | .iny => [.imp]
  | .dex => [.imp]
  | .dey => [.imp]
  | .and => [.imm, .zp, .zpx, .abs, .absx, .absy, .indx, .indy]
  | .ora => [.imm, .zp, .zpx, .abs, .absx, .absy, .indx, .indy]
  | .eor => [.imm, .zp, .zpx, .abs, .absx, .absy, .indx, .indy]
  | .bit => [.zp, .abs]
  | .asl => [.zp, .zpx, .abs, .absx, .acc]
  | .lsr => [.zp, .zpx, .abs, .absx, .acc]
  | .rol => [.zp, .zpx, .abs, .absx, .acc]
  | .ror => [.zp, .zpx, .abs, .absx, .acc]
  | .bcc => [.rel]
  | .bcs => [.rel]
  | .beq => [.rel]
  | .bmi => [.rel]
  | .bne => [.rel]
  | .bpl => [.rel]
  | .bvc => [.rel]
  | .bvs => [.rel]
  | .pha => [.imp]
  | .pla => [.imp]
  | .php => [.imp]
  | .plp => [.imp]
  | .jmp => [.abs]
  | .jsr => [.abs]
  | .rts => [.imp]
  | .rti => [.imp]
  | .clc => [.imp]
  | .sec => [.imp]
  | .cli => [.imp]
  | .sei => [.imp]
  | .clv => [.imp]
  | .cld => [.imp]
  | .sed => [.imp]
  | .nop => [.imp]
  | .brk => [.imp]

/-- A mnemonic with an operand is an instruction of this hardware when R54 gives the pair an opcode
byte: no STA with an immediate, no LDX indexed by X, no JMP indirect. -/
def wellFormedForm (m : Mnemonic) (o : Operand) : Bool := m.modes.contains o.mode

/-- `Instr` is made of well-formed forms only (Laws.TableRow, one lemma per constructor); the check
is a cross-check of the constructors against R54's table. -/
def WellFormed (i : Instr) : Bool := wellFormedForm i.mnemonic i.operand

end Sys2Proof
end

