-- ==== Sys2Proof/Decode.lean ====
section
/-! DEFINITION. Decoding, by the opcode map of spec/30_encoding.md R54 (first table), and encoding,
by the opcode bytes of R54 (second table, spec/opcode_table.json). The two tables are written out
separately; that they agree is an obligation. -/

namespace Sys2Proof

/-- What a byte with an entry stands for, by format (R50): F1 has no operand byte, F2 one, F3 two,
assembled `b2:b1` (R52). -/
inductive Form where
  | f1 (i : Instr)
  | f2 (mk : Byte → Instr)
  | f3 (mk : Addr → Instr)

/-- Row 0x of R54's map; a byte that is not listed has no entry. -/
def opcodeRow0 : List (Byte × Form) :=
  [(0x00#8, .f1 .brk), (0x01#8, .f2 .oraIndx), (0x05#8, .f2 .oraZp), (0x06#8, .f2 .aslZp),
   (0x08#8, .f1 .php), (0x09#8, .f2 .oraImm), (0x0A#8, .f1 .aslAcc), (0x0D#8, .f3 .oraAbs),
   (0x0E#8, .f3 .aslAbs)]

/-- Row 1x of R54's map; a byte that is not listed has no entry. -/
def opcodeRow1 : List (Byte × Form) :=
  [(0x10#8, .f2 .bpl), (0x11#8, .f2 .oraIndy), (0x15#8, .f2 .oraZpx), (0x16#8, .f2 .aslZpx),
   (0x18#8, .f1 .clc), (0x19#8, .f3 .oraAbsy), (0x1D#8, .f3 .oraAbsx), (0x1E#8, .f3 .aslAbsx)]

/-- Row 2x of R54's map; a byte that is not listed has no entry. -/
def opcodeRow2 : List (Byte × Form) :=
  [(0x20#8, .f3 .jsr), (0x21#8, .f2 .andIndx), (0x24#8, .f2 .bitZp), (0x25#8, .f2 .andZp),
   (0x26#8, .f2 .rolZp), (0x28#8, .f1 .plp), (0x29#8, .f2 .andImm), (0x2A#8, .f1 .rolAcc),
   (0x2C#8, .f3 .bitAbs), (0x2D#8, .f3 .andAbs), (0x2E#8, .f3 .rolAbs)]

/-- Row 3x of R54's map; a byte that is not listed has no entry. -/
def opcodeRow3 : List (Byte × Form) :=
  [(0x30#8, .f2 .bmi), (0x31#8, .f2 .andIndy), (0x35#8, .f2 .andZpx), (0x36#8, .f2 .rolZpx),
   (0x38#8, .f1 .sec), (0x39#8, .f3 .andAbsy), (0x3D#8, .f3 .andAbsx), (0x3E#8, .f3 .rolAbsx)]

/-- Row 4x of R54's map; a byte that is not listed has no entry. -/
def opcodeRow4 : List (Byte × Form) :=
  [(0x40#8, .f1 .rti), (0x41#8, .f2 .eorIndx), (0x45#8, .f2 .eorZp), (0x46#8, .f2 .lsrZp),
   (0x48#8, .f1 .pha), (0x49#8, .f2 .eorImm), (0x4A#8, .f1 .lsrAcc), (0x4C#8, .f3 .jmp),
   (0x4D#8, .f3 .eorAbs), (0x4E#8, .f3 .lsrAbs)]

/-- Row 5x of R54's map; a byte that is not listed has no entry. -/
def opcodeRow5 : List (Byte × Form) :=
  [(0x50#8, .f2 .bvc), (0x51#8, .f2 .eorIndy), (0x55#8, .f2 .eorZpx), (0x56#8, .f2 .lsrZpx),
   (0x58#8, .f1 .cli), (0x59#8, .f3 .eorAbsy), (0x5D#8, .f3 .eorAbsx), (0x5E#8, .f3 .lsrAbsx)]

/-- Row 6x of R54's map; a byte that is not listed has no entry. -/
def opcodeRow6 : List (Byte × Form) :=
  [(0x60#8, .f1 .rts), (0x61#8, .f2 .adcIndx), (0x65#8, .f2 .adcZp), (0x66#8, .f2 .rorZp),
   (0x68#8, .f1 .pla), (0x69#8, .f2 .adcImm), (0x6A#8, .f1 .rorAcc), (0x6D#8, .f3 .adcAbs),
   (0x6E#8, .f3 .rorAbs)]

/-- Row 7x of R54's map; a byte that is not listed has no entry. -/
def opcodeRow7 : List (Byte × Form) :=
  [(0x70#8, .f2 .bvs), (0x71#8, .f2 .adcIndy), (0x75#8, .f2 .adcZpx), (0x76#8, .f2 .rorZpx),
   (0x78#8, .f1 .sei), (0x79#8, .f3 .adcAbsy), (0x7D#8, .f3 .adcAbsx), (0x7E#8, .f3 .rorAbsx)]

/-- Row 8x of R54's map; a byte that is not listed has no entry. -/
def opcodeRow8 : List (Byte × Form) :=
  [(0x81#8, .f2 .staIndx), (0x84#8, .f2 .styZp), (0x85#8, .f2 .staZp), (0x86#8, .f2 .stxZp),
   (0x88#8, .f1 .dey), (0x8A#8, .f1 .txa), (0x8C#8, .f3 .styAbs), (0x8D#8, .f3 .staAbs),
   (0x8E#8, .f3 .stxAbs)]

/-- Row 9x of R54's map; a byte that is not listed has no entry. -/
def opcodeRow9 : List (Byte × Form) :=
  [(0x90#8, .f2 .bcc), (0x91#8, .f2 .staIndy), (0x94#8, .f2 .styZpx), (0x95#8, .f2 .staZpx),
   (0x96#8, .f2 .stxZpy), (0x98#8, .f1 .tya), (0x99#8, .f3 .staAbsy), (0x9A#8, .f1 .txs),
   (0x9D#8, .f3 .staAbsx)]

/-- Row Ax of R54's map; a byte that is not listed has no entry. -/
def opcodeRowA : List (Byte × Form) :=
  [(0xA0#8, .f2 .ldyImm), (0xA1#8, .f2 .ldaIndx), (0xA2#8, .f2 .ldxImm), (0xA4#8, .f2 .ldyZp),
   (0xA5#8, .f2 .ldaZp), (0xA6#8, .f2 .ldxZp), (0xA8#8, .f1 .tay), (0xA9#8, .f2 .ldaImm),
   (0xAA#8, .f1 .tax), (0xAC#8, .f3 .ldyAbs), (0xAD#8, .f3 .ldaAbs), (0xAE#8, .f3 .ldxAbs)]

/-- Row Bx of R54's map; a byte that is not listed has no entry. -/
def opcodeRowB : List (Byte × Form) :=
  [(0xB0#8, .f2 .bcs), (0xB1#8, .f2 .ldaIndy), (0xB4#8, .f2 .ldyZpx), (0xB5#8, .f2 .ldaZpx),
   (0xB6#8, .f2 .ldxZpy), (0xB8#8, .f1 .clv), (0xB9#8, .f3 .ldaAbsy), (0xBA#8, .f1 .tsx),
   (0xBC#8, .f3 .ldyAbsx), (0xBD#8, .f3 .ldaAbsx), (0xBE#8, .f3 .ldxAbsy)]

/-- Row Cx of R54's map; a byte that is not listed has no entry. -/
def opcodeRowC : List (Byte × Form) :=
  [(0xC0#8, .f2 .cpyImm), (0xC1#8, .f2 .cmpIndx), (0xC4#8, .f2 .cpyZp), (0xC5#8, .f2 .cmpZp),
   (0xC6#8, .f2 .decZp), (0xC8#8, .f1 .iny), (0xC9#8, .f2 .cmpImm), (0xCA#8, .f1 .dex),
   (0xCC#8, .f3 .cpyAbs), (0xCD#8, .f3 .cmpAbs), (0xCE#8, .f3 .decAbs)]

/-- Row Dx of R54's map; a byte that is not listed has no entry. -/
def opcodeRowD : List (Byte × Form) :=
  [(0xD0#8, .f2 .bne), (0xD1#8, .f2 .cmpIndy), (0xD5#8, .f2 .cmpZpx), (0xD6#8, .f2 .decZpx),
   (0xD8#8, .f1 .cld), (0xD9#8, .f3 .cmpAbsy), (0xDD#8, .f3 .cmpAbsx), (0xDE#8, .f3 .decAbsx)]

/-- Row Ex of R54's map; a byte that is not listed has no entry. -/
def opcodeRowE : List (Byte × Form) :=
  [(0xE0#8, .f2 .cpxImm), (0xE1#8, .f2 .sbcIndx), (0xE4#8, .f2 .cpxZp), (0xE5#8, .f2 .sbcZp),
   (0xE6#8, .f2 .incZp), (0xE8#8, .f1 .inx), (0xE9#8, .f2 .sbcImm), (0xEA#8, .f1 .nop),
   (0xEC#8, .f3 .cpxAbs), (0xED#8, .f3 .sbcAbs), (0xEE#8, .f3 .incAbs)]

/-- Row Fx of R54's map; a byte that is not listed has no entry. -/
def opcodeRowF : List (Byte × Form) :=
  [(0xF0#8, .f2 .beq), (0xF1#8, .f2 .sbcIndy), (0xF5#8, .f2 .sbcZpx), (0xF6#8, .f2 .incZpx),
   (0xF8#8, .f1 .sed), (0xF9#8, .f3 .sbcAbsy), (0xFD#8, .f3 .sbcAbsx), (0xFE#8, .f3 .incAbsx)]

/-- The opcode map (R54), by the high nibble of the opcode byte: 150 entries. -/
def opcodeRow : Nat → List (Byte × Form)
  | 0x0 => opcodeRow0
  | 0x1 => opcodeRow1
  | 0x2 => opcodeRow2
  | 0x3 => opcodeRow3
  | 0x4 => opcodeRow4
  | 0x5 => opcodeRow5
  | 0x6 => opcodeRow6
  | 0x7 => opcodeRow7
  | 0x8 => opcodeRow8
  | 0x9 => opcodeRow9
  | 0xA => opcodeRowA
  | 0xB => opcodeRowB
  | 0xC => opcodeRowC
  | 0xD => opcodeRowD
  | 0xE => opcodeRowE
  | 0xF => opcodeRowF
  | _ => []

/-- "Decode: table lookup by IR" over the whole byte (R53, R102). -/
def decodeOpcode (op : Byte) : Option Form := (opcodeRow (op.toNat / 16)).lookup op

/-- Why bytes are no instruction. -/
inductive DecodeError where
  /-- The opcode byte has no table entry (R57). -/
  | unknownOpcode (op : Byte)
  /-- The bytes end before the instruction does; the machine always hands over three bytes. -/
  | truncated
  deriving DecidableEq, Repr

/-- Reads one instruction off the front of a list of bytes and answers it with the rest. -/
def decode : List Byte → Except DecodeError (Instr × List Byte)
  | [] => .error .truncated
  | op :: bytes =>
    match decodeOpcode op, bytes with
    | none, _ => .error (.unknownOpcode op)
    | some (.f1 i), rest => .ok (i, rest)
    | some (.f2 mk), b1 :: rest => .ok (mk b1, rest)
    | some (.f3 mk), b1 :: b2 :: rest => .ok (mk (hiLo b2 b1), rest)
    | some (.f2 _), [] => .error .truncated
    | some (.f3 _), _ => .error .truncated

/-- The opcode byte of an instruction, from the per-mnemonic table of R54. -/
def opcodeOf : Instr → Byte
  | .ldaImm _ => 0xA9#8
  | .ldaZp _ => 0xA5#8
  | .ldaZpx _ => 0xB5#8
  | .ldaAbs _ => 0xAD#8
  | .ldaAbsx _ => 0xBD#8
  | .ldaAbsy _ => 0xB9#8
  | .ldaIndx _ => 0xA1#8
  | .ldaIndy _ => 0xB1#8
  | .ldxImm _ => 0xA2#8
  | .ldxZp _ => 0xA6#8
  | .ldxZpy _ => 0xB6#8
  | .ldxAbs _ => 0xAE#8
  | .ldxAbsy _ => 0xBE#8
  | .ldyImm _ => 0xA0#8
  | .ldyZp _ => 0xA4#8
  | .ldyZpx _ => 0xB4#8
  | .ldyAbs _ => 0xAC#8
  | .ldyAbsx _ => 0xBC#8
  | .staZp _ => 0x85#8
  | .staZpx _ => 0x95#8
  | .staAbs _ => 0x8D#8
  | .staAbsx _ => 0x9D#8
  | .staAbsy _ => 0x99#8
  | .staIndx _ => 0x81#8
  | .staIndy _ => 0x91#8
  | .stxZp _ => 0x86#8
  | .stxZpy _ => 0x96#8
  | .stxAbs _ => 0x8E#8
  | .styZp _ => 0x84#8
  | .styZpx _ => 0x94#8
  | .styAbs _ => 0x8C#8
  | .tax => 0xAA#8
  | .tay => 0xA8#8
  | .txa => 0x8A#8
  | .tya => 0x98#8
  | .tsx => 0xBA#8
  | .txs => 0x9A#8
  | .adcImm _ => 0x69#8
  | .adcZp _ => 0x65#8
  | .adcZpx _ => 0x75#8
  | .adcAbs _ => 0x6D#8
  | .adcAbsx _ => 0x7D#8
  | .adcAbsy _ => 0x79#8
  | .adcIndx _ => 0x61#8
  | .adcIndy _ => 0x71#8
  | .sbcImm _ => 0xE9#8
  | .sbcZp _ => 0xE5#8
  | .sbcZpx _ => 0xF5#8
  | .sbcAbs _ => 0xED#8
  | .sbcAbsx _ => 0xFD#8
  | .sbcAbsy _ => 0xF9#8
  | .sbcIndx _ => 0xE1#8
  | .sbcIndy _ => 0xF1#8
  | .cmpImm _ => 0xC9#8
  | .cmpZp _ => 0xC5#8
  | .cmpZpx _ => 0xD5#8
  | .cmpAbs _ => 0xCD#8
  | .cmpAbsx _ => 0xDD#8
  | .cmpAbsy _ => 0xD9#8
  | .cmpIndx _ => 0xC1#8
  | .cmpIndy _ => 0xD1#8
  | .cpxImm _ => 0xE0#8
  | .cpxZp _ => 0xE4#8
  | .cpxAbs _ => 0xEC#8
  | .cpyImm _ => 0xC0#8
  | .cpyZp _ => 0xC4#8
  | .cpyAbs _ => 0xCC#8
  | .incZp _ => 0xE6#8
  | .incZpx _ => 0xF6#8
  | .incAbs _ => 0xEE#8
  | .incAbsx _ => 0xFE#8
  | .decZp _ => 0xC6#8
  | .decZpx _ => 0xD6#8
  | .decAbs _ => 0xCE#8
  | .decAbsx _ => 0xDE#8
  | .inx => 0xE8#8
  | .iny => 0xC8#8
  | .dex => 0xCA#8
  | .dey => 0x88#8
  | .andImm _ => 0x29#8
  | .andZp _ => 0x25#8
  | .andZpx _ => 0x35#8
  | .andAbs _ => 0x2D#8
  | .andAbsx _ => 0x3D#8
  | .andAbsy _ => 0x39#8
  | .andIndx _ => 0x21#8
  | .andIndy _ => 0x31#8
  | .oraImm _ => 0x09#8
  | .oraZp _ => 0x05#8
  | .oraZpx _ => 0x15#8
  | .oraAbs _ => 0x0D#8
  | .oraAbsx _ => 0x1D#8
  | .oraAbsy _ => 0x19#8
  | .oraIndx _ => 0x01#8
  | .oraIndy _ => 0x11#8
  | .eorImm _ => 0x49#8
  | .eorZp _ => 0x45#8
  | .eorZpx _ => 0x55#8
  | .eorAbs _ => 0x4D#8
  | .eorAbsx _ => 0x5D#8
  | .eorAbsy _ => 0x59#8
  | .eorIndx _ => 0x41#8
  | .eorIndy _ => 0x51#8
  | .bitZp _ => 0x24#8
  | .bitAbs _ => 0x2C#8
  | .aslZp _ => 0x06#8
  | .aslZpx _ => 0x16#8
  | .aslAbs _ => 0x0E#8
  | .aslAbsx _ => 0x1E#8
  | .aslAcc => 0x0A#8
  | .lsrZp _ => 0x46#8
  | .lsrZpx _ => 0x56#8
  | .lsrAbs _ => 0x4E#8
  | .lsrAbsx _ => 0x5E#8
  | .lsrAcc => 0x4A#8
  | .rolZp _ => 0x26#8
  | .rolZpx _ => 0x36#8
  | .rolAbs _ => 0x2E#8
  | .rolAbsx _ => 0x3E#8
  | .rolAcc => 0x2A#8
  | .rorZp _ => 0x66#8
  | .rorZpx _ => 0x76#8
  | .rorAbs _ => 0x6E#8
  | .rorAbsx _ => 0x7E#8
  | .rorAcc => 0x6A#8
  | .bcc _ => 0x90#8
  | .bcs _ => 0xB0#8
  | .beq _ => 0xF0#8
  | .bmi _ => 0x30#8
  | .bne _ => 0xD0#8
  | .bpl _ => 0x10#8
  | .bvc _ => 0x50#8
  | .bvs _ => 0x70#8
  | .pha => 0x48#8
  | .pla => 0x68#8
  | .php => 0x08#8
  | .plp => 0x28#8
  | .jmp _ => 0x4C#8
  | .jsr _ => 0x20#8
  | .rts => 0x60#8
  | .rti => 0x40#8
  | .clc => 0x18#8
  | .sec => 0x38#8
  | .cli => 0x58#8
  | .sei => 0x78#8
  | .clv => 0xB8#8
  | .cld => 0xD8#8
  | .sed => 0xF8#8
  | .nop => 0xEA#8
  | .brk => 0x00#8

/-- The operand bytes after the opcode, low byte first (R50, R52). -/
def MemOperand.bytes : MemOperand → List Byte
  | .zp b | .zpx b | .zpy b | .indx b | .indy b => [b]
  | .abs w | .absx w | .absy w => [lo8 w, hi8 w]

def Operand.bytes : Operand → List Byte
  | .imm v => [v]
  | .mem m => m.bytes
  | .rel d => [d]
  | .acc | .imp => []

/-- The bytes of an instruction in the order they lie in memory (R50). -/
def encode (i : Instr) : List Byte := opcodeOf i :: i.operand.bytes

/-- Byte `k` of an instruction whose bits are the low `nbits` bits of `w`, bit 0 the least
significant bit of the first byte; bits above `nbits` are 0. -/
def tableByte (nbits w k : Nat) : Byte := BitVec.ofNat 8 ((w % 2 ^ nbits) >>> (8 * k))

/-- Those bits as three bytes, the longest instruction (R50). -/
def tableBytes (nbits w : Nat) : List Byte :=
  [tableByte nbits w 0, tableByte nbits w 1, tableByte nbits w 2]

/-- The instruction the decoder reads from an instruction word numbered as
spec/opcode_table.json numbers it. -/
def decodeTableWord (nbits w : Nat) : Option Instr :=
  match decode (tableBytes nbits w) with
  | .ok (i, _) => some i
  | .error _ => none

end Sys2Proof
end

