-- ==== Sys2Proof/Machine/Fetch.lean ====
section
/-! DEFINITION. Stages 1 and 2 of the step (spec/41_flags_and_dispatch.md R100 to R102): the fetch,
the bytes handed to the decoder, and what happens when the opcode byte has no table entry
(spec/60_exceptions.md R232). -/

namespace Sys2Proof.Machine

/-- Stage 1: IR is written in every step, whatever the byte is (R101, R27). The outputs of the step
before are cleared (log 8). -/
def fetch (s : State) : State :=
  ((s.setIR (s.load s.pc)).setDiagnostics []).setResult .ok

/-- The bytes of the longest instruction at PC, addresses modulo 65536 (R50, R15). Bytes the
instruction does not have are read and dropped, which nothing can observe (R35; log 11). -/
def bytesAtPC (s : State) : List Byte := [s.load s.pc, s.load (s.pc + 1), s.load (s.pc + 2)]

/-- Stage 2: decode depends on the bytes alone (R102). -/
def decodeAtPC (s : State) : Except DecodeError (Instr × List Byte) := decode (bytesAtPC s)

/-- A fetched state whose opcode byte has no table entry: `UnknownOpcode(IR, pc0)` (R232), but for
0x6C under the extension of spec/93_implementation_defined.md U8 (R59; log 4). -/
def undecoded (s : State) : Result :=
  if s.cfg.extJmpIndirect && s.ir == 0x6C#8 then
    .next (jmpIndirect (hiLo (s.load (s.pc + 2)) (s.load (s.pc + 1))) s)
  else .fault (.unknownOpcode s.ir s.pc)

/-- The state after a step from `s` that ends in `UnknownOpcode` (R232): IR holds the byte, nothing
else of the core or of memory has changed. -/
def unknownState (s : State) : State := (fetch s).setResult (.unknownOpcode (s.load s.pc) s.pc)

end Sys2Proof.Machine
end

