-- ==== Sys2Proof/Machine/Step.lean ====
section
/-! DEFINITION. The step (spec/41_flags_and_dispatch.md R100): one instruction, or one halt, or one
failed decode. -/

namespace Sys2Proof.Machine

/-- One step: fetch, decode, execute. -/
def step (s : State) : Host.Outcome State Fault Refusal :=
  match decodeAtPC s with
  | .ok (i, _) => exec i (fetch s)
  | .error _ => undecoded (fetch s)

/-- `s` with the instruction of an opcode-table word stored at PC, where the next step fetches: the
host's load of a program (R254; log 10). -/
def State.withFetchWord (s : State) (nbits w : Nat) : State := s.storeBytes s.pc (tableBytes nbits w)

end Sys2Proof.Machine
end

