-- ==== Sys2Proof/Machine/Port.lean ====
section
/-! DEFINITION. What the host can do to the core (spec/10_state.md R26): request a step, and, between
steps, reset it or write its registers and memory (spec/20_memory.md R44, 70_reset_and_hazards.md
R252; log 14). No step contains such a move. -/

namespace Sys2Proof.Machine

/-- The step port: it accepts a request in any state (R236) and answers the state after it, whose
`result` and `diagnostics` are what the step returned. -/
def stepPort (s : State) : State :=
  match step s with
  | .next t => t
  | .fault (.unknownOpcode _ _) => unknownState s
  | .refused _ => s

/-- The moves of the host between steps. -/
inductive HostMove where
  /-- The reset port, with the start address it carries (R26, R250, R252). -/
  | reset (startAddr : Addr)
  /-- A write of one memory byte (R44). -/
  | poke (addr : Addr) (v : Byte)
  | setA (v : Byte)
  | setX (v : Byte)
  | setY (v : Byte)
  /-- A write of P; bits 5 and 4 are hardwired and stay 1 (R16, R22; log 14). -/
  | setP (v : Byte)
  | setSP (v : Byte)
  | setPC (v : Addr)
  | setIR (v : Byte)
  deriving DecidableEq, Repr

def hostMove (s : State) : HostMove → State
  | .reset startAddr => resetCore { s with cfg := { s.cfg with startAddr := startAddr } }
  | .poke addr v => s.store addr v
  | .setA v => s.setA v
  | .setX v => s.setX v
  | .setY v => s.setY v
  | .setP v => s.setStatus v
  | .setSP v => s.setSP v
  | .setPC v => s.setPC v
  | .setIR v => s.setIR v

end Sys2Proof.Machine
end

