-- ==== Sys2Proof/Safety.lean ====
section
/-! DEFINITION. The terms in which claims are stated: what a run is and how it ends, the invariant of
reachable states, what an instruction reads and writes by the spec's own tables, and what it leaves
unchanged. -/

namespace Sys2Proof.Machine

/-! ## Runs -/

/-- The states of the host's run loop (spec/60_exceptions.md R236). -/
inductive RunState where
  | running
  | halted
  | error
  deriving DecidableEq, Repr

/-- The run-loop state that the latest step's result leads to (R236); reset leads to RUNNING. -/
def State.runState (s : State) : RunState :=
  match s.result with
  | .ok => .running
  | .halted => .halted
  | .unknownOpcode _ _ => .error

/-- The run loop (R106) under fuel: step until the result is not `Ok`. The run has ended when the
answer's `runState` is not RUNNING (spec/70_reset_and_hazards.md R255). -/
def runLoop : Nat → State → State
  | 0, s => s
  | fuel + 1, s =>
    let t := stepPort s
    match t.runState with
    | .running => runLoop fuel t
    | .halted | .error => t

/-- A run from `s` that ends in HALTED within `fuel` steps and whose every step stayed inside the
stack window: the premise a claim about a well-behaved program names (R234). -/
def safeRun : Nat → State → Bool
  | 0, _ => false
  | fuel + 1, s =>
    let t := stepPort s
    t.diagnostics.isEmpty &&
      match t.runState with
      | .running => safeRun fuel t
      | .halted => true
      | .error => false

/-- What holds in every reachable state: bits 5 and 4 of P are 1 (spec/10_state.md R16), memory is in
canonical form, and the latest step signalled at most once (spec/47_stack.md R187). -/
structure Inv (s : State) : Prop where
  hardwired : s.p &&& 0x30#8 = 0x30#8
  canonical : s.mem.wf = true
  oneSignal : s.diagnostics.length ≤ 1

/-! ## Opcode bytes -/

/-- The 106 opcode bytes without a table entry, as spec/30_encoding.md R57 lists them. -/
def unknownBytes : List Byte :=
  [0x02#8, 0x03#8, 0x04#8, 0x07#8, 0x0B#8, 0x0C#8, 0x0F#8, 0x12#8, 0x13#8, 0x14#8,
   0x17#8, 0x1A#8, 0x1B#8, 0x1C#8, 0x1F#8, 0x22#8, 0x23#8, 0x27#8, 0x2B#8, 0x2F#8,
   0x32#8, 0x33#8, 0x34#8, 0x37#8, 0x3A#8, 0x3B#8, 0x3C#8, 0x3F#8, 0x42#8, 0x43#8,
   0x44#8, 0x47#8, 0x4B#8, 0x4F#8, 0x52#8, 0x53#8, 0x54#8, 0x57#8, 0x5A#8, 0x5B#8,
   0x5C#8, 0x5F#8, 0x62#8, 0x63#8, 0x64#8, 0x67#8, 0x6B#8, 0x6C#8, 0x6F#8, 0x72#8,
   0x73#8, 0x74#8, 0x77#8, 0x7A#8, 0x7B#8, 0x7C#8, 0x7F#8, 0x80#8, 0x82#8, 0x83#8,
   0x87#8, 0x89#8, 0x8B#8, 0x8F#8, 0x92#8, 0x93#8, 0x97#8, 0x9B#8, 0x9C#8, 0x9E#8,
   0x9F#8, 0xA3#8, 0xA7#8, 0xAB#8, 0xAF#8, 0xB2#8, 0xB3#8, 0xB7#8, 0xBB#8, 0xBF#8,
   0xC2#8, 0xC3#8, 0xC7#8, 0xCB#8, 0xCF#8, 0xD2#8, 0xD3#8, 0xD4#8, 0xD7#8, 0xDA#8,
   0xDB#8, 0xDC#8, 0xDF#8, 0xE2#8, 0xE3#8, 0xE7#8, 0xEB#8, 0xEF#8, 0xF2#8, 0xF3#8,
   0xF4#8, 0xF7#8, 0xFA#8, 0xFB#8, 0xFC#8, 0xFF#8]

/-- The byte at PC is given a meaning by the optional extension of
spec/93_implementation_defined.md U8 (log 4). -/
def extended (s : State) : Bool := s.cfg.extJmpIndirect && s.load s.pc == 0x6C#8

/-- The conditions of the eight branches, by the bit of P each tests (spec/46_branch.md R170). -/
def branchTaken (s : State) : Mnemonic → Option Bool
  | .bcc => some (!s.p.getLsbD 0)
  | .bcs => some (s.p.getLsbD 0)
  | .beq => some (s.p.getLsbD 1)
  | .bmi => some (s.p.getLsbD 7)
  | .bne => some (!s.p.getLsbD 1)
  | .bpl => some (!s.p.getLsbD 7)
  | .bvc => some (!s.p.getLsbD 6)
  | .bvs => some (s.p.getLsbD 6)
  | _ => none

/-! ## What an instruction reads -/

/-- The operand value `M` of an instruction of class read or read-modify-write, or the accumulator
operand (spec/40_addressing_modes.md R84); none where the instruction has no such operand. -/
def operandValue (s : State) : Operand → Option Byte
  | .imm v => some v
  | .mem m => some (s.load (effAddr s m))
  | .acc => some s.a
  | .rel _ | .imp => none

/-- The effective address `ea` of an operand in memory (R84). -/
def operandAddr (s : State) : Operand → Option Addr
  | .mem m => some (effAddr s m)
  | .imm _ | .acc | .rel _ | .imp => none

/-! ## What an instruction writes, by the spec's own tables -/

/-- The 8-bit registers besides P. -/
inductive Reg where
  | a | x | y | sp | ir
  deriving DecidableEq, Repr

def State.reg (s : State) : Reg → Byte
  | .a => s.a
  | .x => s.x
  | .y => s.y
  | .sp => s.sp
  | .ir => s.ir

/-- The registers an instruction writes besides P and PC (spec/10_state.md R11, R12, R13, R25). -/
def regsWritten (i : Instr) : List Reg :=
  match i.mnemonic with
  | .lda | .adc | .sbc | .and | .ora | .eor | .txa | .tya => [.a]
  | .asl | .lsr | .rol | .ror => if i.operand = .acc then [.a] else []
  | .ldx | .tax | .tsx | .inx | .dex => [.x]
  | .ldy | .tay | .iny | .dey => [.y]
  | .pla => [.a, .sp]
  | .txs | .pha | .php | .plp | .jsr | .rts | .rti => [.sp]
  | .sta | .stx | .sty | .cmp | .cpx | .cpy | .inc | .dec | .bit => []
  | .bcc | .bcs | .beq | .bmi | .bne | .bpl | .bvc | .bvs | .jmp => []
  | .clc | .sec | .cli | .sei | .clv | .cld | .sed | .nop | .brk => []

/-- Which instruction writes which flag: the table under spec/10_state.md R24. -/
def flagsWritten : Mnemonic → List Flag
  | .lda | .ldx | .ldy | .tax | .tay | .txa | .tya | .tsx | .pla => [.n, .z]
  | .and | .ora | .eor => [.n, .z]
  | .inc | .dec | .inx | .iny | .dex | .dey => [.n, .z]
  | .adc | .sbc => [.n, .v, .z, .c]
  | .cmp | .cpx | .cpy => [.n, .z, .c]
  | .asl | .lsr | .rol | .ror => [.n, .z, .c]
  | .bit => [.n, .v, .z]
  | .clc | .sec => [.c]
  | .cld | .sed => [.d]
  | .cli | .sei => [.i]
  | .clv => [.v]
  | .plp | .rti => [.n, .v, .d, .i, .z, .c]
  | .sta | .stx | .sty | .txs | .pha | .php | .jmp | .jsr | .rts | .nop | .brk => []
  | .bcc | .bcs | .beq | .bmi | .bne | .bpl | .bvc | .bvs => []

/-- The addresses an instruction stores a byte to, in the order of the stores: the effective address
of the stores and read-modify-writes (R84), the stack bytes of the pushes (R185, R202). -/
def storedAddrs (s : State) (i : Instr) : List Addr :=
  match i.mnemonic with
  | .sta | .stx | .sty | .inc | .dec | .asl | .lsr | .rol | .ror => (operandAddr s i.operand).toList
  | .pha | .php => [stackAddr s.cfg s.sp]
  | .jsr => [stackAddr s.cfg s.sp, stackAddr s.cfg (s.sp - 1)]
  | _ => []

/-- The byte the `k`-th pull of an instruction reads, counted from 1 (R186). -/
def pulledByte (s : State) (k : Nat) : Byte := s.load (stackAddr s.cfg (s.sp + BitVec.ofNat 8 k))

/-- The signals of `k` pushes in a row: one if some push begins with SP 0x00 (R187). -/
def pushSignals (s : State) (k : Nat) : List Diagnostic :=
  if s.sp.toNat < k then [.stackOverflow] else []

/-- The signals of `k` pulls in a row: one if some pull begins with SP 0xFF (R187). -/
def pullSignals (s : State) (k : Nat) : List Diagnostic :=
  if s.sp.toNat + k > 255 then [.stackUnderflow] else []

/-- Which opcode byte in which mode an instruction rule gives its mnemonic: exactly these. -/
def HasEncodings (m : Mnemonic) (rows : List (Mode × Byte)) : Prop :=
  ∀ i : Instr, i.mnemonic = m ↔ (i.operand.mode, opcodeOf i) ∈ rows

/-! ## What an instruction leaves unchanged -/

/-- Everything but the named registers, flags and bytes, and but PC, is as before: the other
registers, every other bit of P (bits 5 and 4 among them), every other byte of memory, the
configuration. -/
structure Frame (regs : List Reg) (flags : List Flag) (stored : List Addr) (s t : State) : Prop where
  regs : ∀ r, r ∉ regs → t.reg r = s.reg r
  bits : ∀ k, (∀ f ∈ flags, f.index ≠ k) → t.p.getLsbD k = s.p.getLsbD k
  bytes : ∀ a, a ∉ stored → t.load a = s.load a
  cfg : t.cfg = s.cfg

/-- Nothing is signalled and the step's result is not touched. -/
structure Quiet (s t : State) : Prop where
  diagnostics : t.diagnostics = s.diagnostics
  result : t.result = s.result

/-- An instruction that ends like most do: PC past its bytes (spec/10_state.md R14), the frame kept,
nothing signalled. -/
structure Ordinary (regs : List Reg) (flags : List Flag) (stored : List Addr) (i : Instr)
    (s t : State) : Prop where
  pc : t.pc = s.pc + BitVec.ofNat 16 i.length
  frame : Frame regs flags stored s t
  quiet : Quiet s t

/-- N and Z are those of `v` (spec/41_flags_and_dispatch.md R91). -/
structure SetsNZ (v : Byte) (t : State) : Prop where
  n : t.flag .n = v.getLsbD 7
  z : t.flag .z = true ↔ v.toNat = 0

/-- The states differ at most in the D and I bits of P. -/
structure SameButDI (s t : State) : Prop where
  rest : t = { s with p := t.p }
  bits : ∀ k, k ≠ 2 → k ≠ 3 → t.p.getLsbD k = s.p.getLsbD k

end Sys2Proof.Machine
end

