-- ==== Sys2Proof/Certificates/Slice0/Obligations.lean ====
section
/-! DEFINITION. The statements for the provers, by file of spec/: encoding, the step, whole-machine
rules, one statement per group of instruction rules, the flag engine, the resolver, the stack,
memory, reset and the run. Statements whose docstring names a log entry or a decision of the spec
rest on that choice. Throughout, a step's result and diagnostics are fields of the state (log 8), a
halt is a next state (log 6), an unknown opcode is a fault (log 7) and `mem.wf` is the canonical form
of memory (log 9). -/

open Sys2Proof Sys2Proof.Machine

/-- For every instruction of the table, with every operand, and whatever bytes follow it, decode
of encode i followed by the rest answers i and the rest. (R50, R52, R53, R54) -/
def Obligations.DecodeOfEncodeIsTheInstruction : Prop :=
  ∀ (i : Instr) (rest : List Byte), decode (encode i ++ rest) = .ok (i, rest)

/-- Whenever bytes decode to an instruction and a rest, the instruction's encoding followed by the
rest is those bytes: no two words share a meaning and no bit of one is dropped. (R50, R53, R56) -/
def Obligations.EncodeOfDecodeIsTheBytes : Prop :=
  ∀ (bytes rest : List Byte) (i : Instr), decode bytes = .ok (i, rest) → encode i ++ rest = bytes

/-- The list of R57 has 106 different bytes, and a byte decodes as unknown, whatever follows it,
exactly when it is in the list; 0x00 decodes to the halt sentinel. (R57, R60, R61) -/
def Obligations.UnknownBytesAreThoseOfTheList : Prop :=
  unknownBytes.length = 106 ∧ unknownBytes.Nodup ∧
  (∀ op : Byte, op ∈ unknownBytes ↔ ∀ bytes, decode (op :: bytes) = .error (.unknownOpcode op)) ∧
  ∀ rest, decode (0x00#8 :: rest) = .ok (.brk, rest)

/-- 0xA9 with an operand byte decodes to LDA immediate, 0xAA to TAX, 0x00 to the halt sentinel;
opcode 0xFF at PC = 0 ends the step in UnknownOpcode(0xFF, 0). (R55) -/
def Obligations.OpcodesTheSourceGives : Prop :=
  (∀ v rest, decode (0xA9#8 :: v :: rest) = .ok (.ldaImm v, rest)) ∧
  (∀ rest, decode (0xAA#8 :: rest) = .ok (.tax, rest)) ∧
  (∀ rest, decode (0x00#8 :: rest) = .ok (.brk, rest)) ∧
  ∀ s : State, s.pc = 0x0000#16 → s.load 0x0000#16 = 0xFF#8 →
    step s = .fault (.unknownOpcode 0xFF#8 0x0000#16)

/-- For every mnemonic and operand whose mode R54 gives the mnemonic there is exactly one
instruction with that mnemonic and operand, and every instruction is such a pair. (R51, R54, R83)
-/
def Obligations.EveryFormIsOneInstruction : Prop :=
  (∀ (m : Mnemonic) (o : Operand), wellFormedForm m o = true →
    ∃! i : Instr, i.mnemonic = m ∧ i.operand = o) ∧
  ∀ i : Instr, wellFormedForm i.mnemonic i.operand = true

/-- Nine opcode bytes written out in binary from R54, with operand bytes, low byte first, decode
to the instructions they stand for. (R52, R54) -/
def Obligations.WordsWrittenOutFromTheTable : Prop :=
  decode [0b10111101#8, 0x34#8, 0x12#8] = .ok (.ldaAbsx 0x1234#16, []) ∧
  decode [0b01110001#8, 0x20#8] = .ok (.adcIndy 0x20#8, []) ∧
  decode [0b00100100#8, 0x10#8] = .ok (.bitZp 0x10#8, []) ∧
  decode [0b01101010#8] = .ok (.rorAcc, []) ∧
  decode [0b11010000#8, 0xFB#8] = .ok (.bne 0xFB#8, []) ∧
  decode [0b00101000#8] = .ok (.plp, []) ∧
  decode [0b00100000#8, 0x0C#8, 0x06#8] = .ok (.jsr 0x060C#16, []) ∧
  decode [0b10111000#8] = .ok (.clv, []) ∧
  decode [0b10010110#8, 0x80#8] = .ok (.stxZpy 0x80#8, [])

/-- When the three bytes at PC, PC + 1 and PC + 2 decode to an instruction i, the step is exec of
i on the state whose IR holds the opcode byte and whose outputs of the step before (diagnostics,
result) are cleared; PC is still the address of the opcode byte there. (R100, R101, R102, R103) -/
def Obligations.StepRunsTheDecodedInstruction : Prop :=
  ∀ (s : State) (i : Instr) (rest : List Byte),
    decode [s.load s.pc, s.load (s.pc + 1), s.load (s.pc + 2)] = .ok (i, rest) →
    step s = exec i { s with ir := s.load s.pc, diagnostics := [], result := .ok }

/-- The state after a step, also after one that ends in Halted or UnknownOpcode, has in IR the
byte that stood at PC, and neither IR nor the outputs of the step before influence it (that the
outputs are fields of the state is the model's choice, log 8). (R27, R101, R29) -/
def Obligations.EveryStepWritesIR : Prop :=
  ∀ s : State, (stepPort s).ir = s.load s.pc ∧
    ∀ (v : Byte) (d : List Diagnostic) (r : StepResult),
      stepPort { s with ir := v, diagnostics := d, result := r } = stepPort s

/-- With 0x00 at PC the step answers a next state with result Halted, IR = 0x00 and PC as before
(that Halted is a next state is the model's choice, log 6); with a byte of R57's list it ends in
the fault UnknownOpcode carrying that byte and PC, but for 0x6C under the optional extension (U8;
that the extension is part of the step is the model's choice, log 4); with any other byte, and
with 0x6C under the extension, it answers a next state with result Ok. (R230, R218, R232, R57,
93_implementation_defined.md U8) -/
def Obligations.StepResultIsDecidedByTheOpcodeByte : Prop :=
  ∀ s : State,
    (s.load s.pc = 0x00#8 →
      ∃ t, step s = .next t ∧ t.result = .halted ∧ t.ir = 0x00#8 ∧ t.pc = s.pc) ∧
    (s.load s.pc ∈ unknownBytes → extended s = false →
      step s = .fault (.unknownOpcode (s.load s.pc) s.pc)) ∧
    (s.load s.pc ≠ 0x00#8 → (s.load s.pc ∉ unknownBytes ∨ extended s = true) →
      ∃ t, step s = .next t ∧ t.result = .ok)

/-- A step on a byte of R57's list leaves IR = the byte and every other register and every byte of
memory as before, PC included (decision D10 of the spec), with the result UnknownOpcode(byte, PC)
and no diagnostic. (R232, R237) -/
def Obligations.UnknownOpcodeChangesOnlyIR : Prop :=
  ∀ s : State, s.load s.pc ∈ unknownBytes → extended s = false →
    stepPort s = { s with
      ir := s.load s.pc, diagnostics := [], result := .unknownOpcode (s.load s.pc) s.pc }

/-- BRK executed answers the same state with result Halted; the step on 0x00 also leaves IR = 0x00
and no diagnostic; PC is not advanced (decision D9 of the spec); the result as a field of the next
state is the model's choice (log 6). (R218, R231) -/
def Obligations.HaltChangesOnlyIR : Prop :=
  HasEncodings .brk [(.imp, 0x00#8)] ∧
  (∀ s : State, exec .brk s = .next { s with result := .halted }) ∧
  ∀ s : State, s.load s.pc = 0x00#8 →
    step s = .next { s with ir := 0x00#8, diagnostics := [], result := .halted }

/-- Whenever a step's result is not Ok, a further step answers exactly the same state, result
included: HALTED and ERROR are absorbing for an undisturbed core (the spec's decision D11). (R236,
R231, R232) -/
def Obligations.HaltedAndErrorRepeat : Prop :=
  ∀ s : State, (stepPort s).result ≠ .ok → stepPort (stepPort s) = stepPort s

/-- exec answers a next state for every one of the 150 instructions, every operand and every
state. (R105, R110, R150, R160, R189, R200, R209) -/
def Obligations.EveryHandlerCompletes : Prop :=
  ∀ (i : Instr) (s : State), ∃ t, exec i s = .next t

/-- In every state that meets the invariant (for PLP and RTI, bits 5 and 4 of P must be 1 to stay
as they are), when exec answers a next state, every register but those R11, R12, R13 and R25 name
for the instruction, every bit of P but the flags of the table under R24, every byte of memory but
those it stores to (the effective address of stores and read-modify-writes, the stack bytes of the
pushes) and the configuration are as before. (R11, R12, R13, R17, R24, R25, R31) -/
def Obligations.InstructionsChangeOnlyWhatTheTablesName : Prop :=
  ∀ (i : Instr) (s t : State), Inv s → exec i s = .next t →
    Frame (regsWritten i) (flagsWritten i.mnemonic) (storedAddrs s i) s t

/-- When exec answers a next state, the diagnostics of the state before are kept in front and at
most one signal is added, StackOverflow only by PHA, PHP, JSR and StackUnderflow only by PLA, PLP,
RTS, RTI; the result is written by BRK alone. (R187, R234) -/
def Obligations.OnlyStackInstructionsSignal : Prop :=
  ∀ (i : Instr) (s t : State), exec i s = .next t →
    (t.diagnostics = s.diagnostics ∨
      t.diagnostics = s.diagnostics ++ [.stackOverflow] ∧ i.mnemonic ∈ [.pha, .php, .jsr] ∨
      t.diagnostics = s.diagnostics ++ [.stackUnderflow] ∧
        i.mnemonic ∈ [.pla, .plp, .rts, .rti]) ∧
    (i.mnemonic ≠ .brk → t.result = s.result)

/-- For every instruction but the eight branches, JMP, JSR, RTS, RTI and BRK, PC after it is PC
before it plus the instruction's length of 1, 2 or 3 bytes, modulo 65536. (R14, R15, R51, R104) -/
def Obligations.PCAdvancesByTheLength : Prop :=
  ∀ (i : Instr) (s t : State), exec i s = .next t →
    i.mnemonic ∉ [.bcc, .bcs, .beq, .bmi, .bne, .bpl, .bvc, .bvs, .jmp, .jsr, .rts, .rti, .brk] →
    t.pc.toNat = (s.pc.toNat + (encode i).length) % 65536

/-- After any instruction that writes A (or X, or Y), N is bit 7 of the new value of that register
and Z is 1 exactly when it is 0. (R11, R12, R13, R19, R91) -/
def Obligations.WritingARegisterSetsNZ : Prop :=
  ∀ (i : Instr) (s t : State), exec i s = .next t →
    (.a ∈ regsWritten i → SetsNZ t.a t) ∧ (.x ∈ regsWritten i → SetsNZ t.x t) ∧
    (.y ∈ regsWritten i → SetsNZ t.y t)

/-- Two states that differ only in D and I give, for every instruction but PHP, next states that
differ only in D and I: ADC and SBC are binary whatever D holds, and I masks nothing. (R20, R21,
R131, R238) -/
def Obligations.DAndIAreReadByPHPOnly : Prop :=
  ∀ (i : Instr) (s s' : State), i.mnemonic ≠ .php → SameButDI s s' →
    ∃ t t', exec i s = .next t ∧ exec i s' = .next t' ∧ SameButDI t t'

/-- In the modes and at the opcode bytes of the rules, and in no others, the load completes in
every state: the register is the operand value (the immediate, or the byte at the effective
address), N and Z are its, PC is past the instruction, and nothing else changes. (R111, R112,
R113) -/
def Obligations.LoadsCopyTheOperandAndSetNZ : Prop :=
  HasEncodings .lda
      [(.imm, 0xA9#8), (.zp, 0xA5#8), (.zpx, 0xB5#8), (.abs, 0xAD#8),
       (.absx, 0xBD#8), (.absy, 0xB9#8), (.indx, 0xA1#8), (.indy, 0xB1#8)] ∧
  HasEncodings .ldx
      [(.imm, 0xA2#8), (.zp, 0xA6#8), (.zpy, 0xB6#8),
       (.abs, 0xAE#8), (.absy, 0xBE#8)] ∧
  HasEncodings .ldy
      [(.imm, 0xA0#8), (.zp, 0xA4#8), (.zpx, 0xB4#8),
       (.abs, 0xAC#8), (.absx, 0xBC#8)] ∧
  ∀ (i : Instr) (s : State),
    (i.mnemonic = .lda → ∃ m t, operandValue s i.operand = some m ∧ exec i s = .next t ∧
      t.a = m ∧ SetsNZ m t ∧ Ordinary [.a] [.n, .z] [] i s t) ∧
    (i.mnemonic = .ldx → ∃ m t, operandValue s i.operand = some m ∧ exec i s = .next t ∧
      t.x = m ∧ SetsNZ m t ∧ Ordinary [.x] [.n, .z] [] i s t) ∧
    (i.mnemonic = .ldy → ∃ m t, operandValue s i.operand = some m ∧ exec i s = .next t ∧
      t.y = m ∧ SetsNZ m t ∧ Ordinary [.y] [.n, .z] [] i s t)

/-- In the modes and at the opcode bytes of the rules, and in no others, the store completes in
every state with memory in canonical form: the byte at the effective address (computed in the
state before) is the register, every other byte, every register and all of P are as before, PC is
past the instruction. (R114, R115, R116) -/
def Obligations.StoresWriteTheRegisterAtTheAddress : Prop :=
  HasEncodings .sta
      [(.zp, 0x85#8), (.zpx, 0x95#8), (.abs, 0x8D#8), (.absx, 0x9D#8),
       (.absy, 0x99#8), (.indx, 0x81#8), (.indy, 0x91#8)] ∧
  HasEncodings .stx [(.zp, 0x86#8), (.zpy, 0x96#8), (.abs, 0x8E#8)] ∧
  HasEncodings .sty [(.zp, 0x84#8), (.zpx, 0x94#8), (.abs, 0x8C#8)] ∧
  ∀ (i : Instr) (s : State), s.mem.wf = true →
    (i.mnemonic = .sta → ∃ ea t, operandAddr s i.operand = some ea ∧ exec i s = .next t ∧
      t.load ea = s.a ∧ Ordinary [] [] [ea] i s t) ∧
    (i.mnemonic = .stx → ∃ ea t, operandAddr s i.operand = some ea ∧ exec i s = .next t ∧
      t.load ea = s.x ∧ Ordinary [] [] [ea] i s t) ∧
    (i.mnemonic = .sty → ∃ ea t, operandAddr s i.operand = some ea ∧ exec i s = .next t ∧
      t.load ea = s.y ∧ Ordinary [] [] [ea] i s t)

/-- Each transfer completes in every state: the destination holds the source, the source and
everything else are as before, N and Z are those of the value but for TXS, which writes no flag
and signals nothing. (R117, R118, R119, R120, R121, R122) -/
def Obligations.TransfersCopyTheRegister : Prop :=
  HasEncodings .tax [(.imp, 0xAA#8)] ∧
  HasEncodings .tay [(.imp, 0xA8#8)] ∧
  HasEncodings .txa [(.imp, 0x8A#8)] ∧
  HasEncodings .tya [(.imp, 0x98#8)] ∧
  HasEncodings .tsx [(.imp, 0xBA#8)] ∧
  HasEncodings .txs [(.imp, 0x9A#8)] ∧
  ∀ s : State,
    (∃ t, exec .tax s = .next t ∧ t.x = s.a ∧ SetsNZ s.a t ∧ Ordinary [.x] [.n, .z] [] .tax s t) ∧
    (∃ t, exec .tay s = .next t ∧ t.y = s.a ∧ SetsNZ s.a t ∧ Ordinary [.y] [.n, .z] [] .tay s t) ∧
    (∃ t, exec .txa s = .next t ∧ t.a = s.x ∧ SetsNZ s.x t ∧ Ordinary [.a] [.n, .z] [] .txa s t) ∧
    (∃ t, exec .tya s = .next t ∧ t.a = s.y ∧ SetsNZ s.y t ∧ Ordinary [.a] [.n, .z] [] .tya s t) ∧
    (∃ t, exec .tsx s = .next t ∧ t.x = s.sp ∧ SetsNZ s.sp t ∧ Ordinary [.x] [.n, .z] [] .tsx s t) ∧
    (∃ t, exec .txs s = .next t ∧ t.sp = s.x ∧ Ordinary [.sp] [] [] .txs s t)

/-- ADC completes in every state, D set or not: A is the sum of A, the operand value and C modulo
256, C is 1 exactly when the sum exceeds 255, V exactly when A and the operand have the same sign
and the result another, N and Z are the result's, nothing else changes. (R132) -/
def Obligations.ADCAddsWithCarry : Prop :=
  HasEncodings .adc
      [(.imm, 0x69#8), (.zp, 0x65#8), (.zpx, 0x75#8), (.abs, 0x6D#8),
       (.absx, 0x7D#8), (.absy, 0x79#8), (.indx, 0x61#8), (.indy, 0x71#8)] ∧
  ∀ (i : Instr) (s : State), i.mnemonic = .adc →
    ∃ m t, operandValue s i.operand = some m ∧ exec i s = .next t ∧
      (let sum := s.a.toNat + m.toNat + (s.flag .c).toNat
       t.a.toNat = sum % 256 ∧ (t.flag .c = true ↔ sum > 255)) ∧
      (t.flag .v = true ↔ s.a.msb = m.msb ∧ t.a.msb ≠ s.a.msb) ∧ SetsNZ t.a t ∧
      Ordinary [.a] [.n, .v, .z, .c] [] i s t

/-- SBC completes in every state, D set or not: A is A + (255 - operand) + C modulo 256, C is 1
exactly when that sum exceeds 255, V exactly when A and the complemented operand have the same
sign and the result another, N and Z are the result's, nothing else changes. (R133) -/
def Obligations.SBCAddsTheComplement : Prop :=
  HasEncodings .sbc
      [(.imm, 0xE9#8), (.zp, 0xE5#8), (.zpx, 0xF5#8), (.abs, 0xED#8),
       (.absx, 0xFD#8), (.absy, 0xF9#8), (.indx, 0xE1#8), (.indy, 0xF1#8)] ∧
  ∀ (i : Instr) (s : State), i.mnemonic = .sbc →
    ∃ m t, operandValue s i.operand = some m ∧ exec i s = .next t ∧
      (let sum := s.a.toNat + (255 - m.toNat) + (s.flag .c).toNat
       t.a.toNat = sum % 256 ∧ (t.flag .c = true ↔ sum > 255)) ∧
      (t.flag .v = true ↔ s.a.msb ≠ m.msb ∧ t.a.msb ≠ s.a.msb) ∧ SetsNZ t.a t ∧
      Ordinary [.a] [.n, .v, .z, .c] [] i s t

/-- Each compare completes in every state: N is bit 7 of register minus operand modulo 256, Z is 1
exactly when they are equal, C exactly when the register is at least the operand as unsigned
numbers; the register, V and everything else are as before. (R134, R135, R136) -/
def Obligations.ComparesSetNZCOnly : Prop :=
  HasEncodings .cmp
      [(.imm, 0xC9#8), (.zp, 0xC5#8), (.zpx, 0xD5#8), (.abs, 0xCD#8),
       (.absx, 0xDD#8), (.absy, 0xD9#8), (.indx, 0xC1#8), (.indy, 0xD1#8)] ∧
  HasEncodings .cpx [(.imm, 0xE0#8), (.zp, 0xE4#8), (.abs, 0xEC#8)] ∧
  HasEncodings .cpy [(.imm, 0xC0#8), (.zp, 0xC4#8), (.abs, 0xCC#8)] ∧
  ∀ (i : Instr) (s : State),
    (i.mnemonic = .cmp → ∃ m t, operandValue s i.operand = some m ∧ exec i s = .next t ∧
      (t.flag .n = true ↔ (s.a.toNat + 256 - m.toNat) % 256 ≥ 128) ∧
      (t.flag .z = true ↔ s.a = m) ∧ (t.flag .c = true ↔ s.a.toNat ≥ m.toNat) ∧
      Ordinary [] [.n, .z, .c] [] i s t) ∧
    (i.mnemonic = .cpx → ∃ m t, operandValue s i.operand = some m ∧ exec i s = .next t ∧
      (t.flag .n = true ↔ (s.x.toNat + 256 - m.toNat) % 256 ≥ 128) ∧
      (t.flag .z = true ↔ s.x = m) ∧ (t.flag .c = true ↔ s.x.toNat ≥ m.toNat) ∧
      Ordinary [] [.n, .z, .c] [] i s t) ∧
    (i.mnemonic = .cpy → ∃ m t, operandValue s i.operand = some m ∧ exec i s = .next t ∧
      (t.flag .n = true ↔ (s.y.toNat + 256 - m.toNat) % 256 ≥ 128) ∧
      (t.flag .z = true ↔ s.y = m) ∧ (t.flag .c = true ↔ s.y.toNat ≥ m.toNat) ∧
      Ordinary [] [.n, .z, .c] [] i s t)

/-- In every state with memory in canonical form INC and DEC complete: the byte at the effective
address is one higher or lower modulo 256, N and Z are the new byte's, C, V and everything else
are as before. (R137, R138) -/
def Obligations.INCAndDECChangeTheByteByOne : Prop :=
  HasEncodings .inc [(.zp, 0xE6#8), (.zpx, 0xF6#8), (.abs, 0xEE#8), (.absx, 0xFE#8)] ∧
  HasEncodings .dec [(.zp, 0xC6#8), (.zpx, 0xD6#8), (.abs, 0xCE#8), (.absx, 0xDE#8)] ∧
  ∀ (i : Instr) (s : State), s.mem.wf = true →
    (i.mnemonic = .inc → ∃ ea t, operandAddr s i.operand = some ea ∧ exec i s = .next t ∧
      (t.load ea).toNat = ((s.load ea).toNat + 1) % 256 ∧ SetsNZ (t.load ea) t ∧
      Ordinary [] [.n, .z] [ea] i s t) ∧
    (i.mnemonic = .dec → ∃ ea t, operandAddr s i.operand = some ea ∧ exec i s = .next t ∧
      (t.load ea).toNat = ((s.load ea).toNat + 255) % 256 ∧ SetsNZ (t.load ea) t ∧
      Ordinary [] [.n, .z] [ea] i s t)

/-- Each completes in every state: X or Y is one higher or lower modulo 256, N and Z are the new
value's, C, V and everything else are as before. (R139, R140, R141, R142) -/
def Obligations.IndexRegistersCountByOne : Prop :=
  HasEncodings .inx [(.imp, 0xE8#8)] ∧
  HasEncodings .iny [(.imp, 0xC8#8)] ∧
  HasEncodings .dex [(.imp, 0xCA#8)] ∧
  HasEncodings .dey [(.imp, 0x88#8)] ∧
  ∀ s : State,
    (∃ t, exec .inx s = .next t ∧ t.x.toNat = (s.x.toNat + 1) % 256 ∧ SetsNZ t.x t ∧
      Ordinary [.x] [.n, .z] [] .inx s t) ∧
    (∃ t, exec .iny s = .next t ∧ t.y.toNat = (s.y.toNat + 1) % 256 ∧ SetsNZ t.y t ∧
      Ordinary [.y] [.n, .z] [] .iny s t) ∧
    (∃ t, exec .dex s = .next t ∧ t.x.toNat = (s.x.toNat + 255) % 256 ∧ SetsNZ t.x t ∧
      Ordinary [.x] [.n, .z] [] .dex s t) ∧
    (∃ t, exec .dey s = .next t ∧ t.y.toNat = (s.y.toNat + 255) % 256 ∧ SetsNZ t.y t ∧
      Ordinary [.y] [.n, .z] [] .dey s t)

/-- Each completes in every state: every bit of A is the and, or, exclusive or of the same bits of
A and the operand value, N and Z are the result's, C, V and everything else are as before. (R151,
R152, R153) -/
def Obligations.LogicWorksBitByBit : Prop :=
  HasEncodings .and
      [(.imm, 0x29#8), (.zp, 0x25#8), (.zpx, 0x35#8), (.abs, 0x2D#8),
       (.absx, 0x3D#8), (.absy, 0x39#8), (.indx, 0x21#8), (.indy, 0x31#8)] ∧
  HasEncodings .ora
      [(.imm, 0x09#8), (.zp, 0x05#8), (.zpx, 0x15#8), (.abs, 0x0D#8),
       (.absx, 0x1D#8), (.absy, 0x19#8), (.indx, 0x01#8), (.indy, 0x11#8)] ∧
  HasEncodings .eor
      [(.imm, 0x49#8), (.zp, 0x45#8), (.zpx, 0x55#8), (.abs, 0x4D#8),
       (.absx, 0x5D#8), (.absy, 0x59#8), (.indx, 0x41#8), (.indy, 0x51#8)] ∧
  ∀ (i : Instr) (s : State),
    (i.mnemonic = .and → ∃ m t, operandValue s i.operand = some m ∧ exec i s = .next t ∧
      (∀ k, t.a.getLsbD k = (s.a.getLsbD k && m.getLsbD k)) ∧ SetsNZ t.a t ∧
      Ordinary [.a] [.n, .z] [] i s t) ∧
    (i.mnemonic = .ora → ∃ m t, operandValue s i.operand = some m ∧ exec i s = .next t ∧
      (∀ k, t.a.getLsbD k = (s.a.getLsbD k || m.getLsbD k)) ∧ SetsNZ t.a t ∧
      Ordinary [.a] [.n, .z] [] i s t) ∧
    (i.mnemonic = .eor → ∃ m t, operandValue s i.operand = some m ∧ exec i s = .next t ∧
      (∀ k, t.a.getLsbD k = (s.a.getLsbD k ^^ m.getLsbD k)) ∧ SetsNZ t.a t ∧
      Ordinary [.a] [.n, .z] [] i s t)

/-- BIT completes in every state: Z is 1 exactly when A and the operand have no 1 bit in common, N
and V are bits 7 and 6 of the memory operand, A, C and everything else are as before. (R154) -/
def Obligations.BITTestsTheOperand : Prop :=
  HasEncodings .bit [(.zp, 0x24#8), (.abs, 0x2C#8)] ∧
  ∀ (i : Instr) (s : State), i.mnemonic = .bit →
    ∃ m t, operandValue s i.operand = some m ∧ exec i s = .next t ∧
      (t.flag .z = true ↔ ∀ k, ¬(s.a.getLsbD k = true ∧ m.getLsbD k = true)) ∧
      t.flag .n = m.getLsbD 7 ∧ t.flag .v = m.getLsbD 6 ∧ Ordinary [] [.n, .v, .z] [] i s t

/-- In every state with memory in canonical form ASL and LSR complete, in both kinds of form: the
operand doubled modulo 256, or halved, is written back where it came from (A, or the effective
address, and A is then untouched), C is the bit shifted out, N and Z are the result's, everything
else is as before. (R161, R162) -/
def Obligations.ShiftsMoveOneBitIntoCarry : Prop :=
  HasEncodings .asl
      [(.zp, 0x06#8), (.zpx, 0x16#8), (.abs, 0x0E#8),
       (.absx, 0x1E#8), (.acc, 0x0A#8)] ∧
  HasEncodings .lsr
      [(.zp, 0x46#8), (.zpx, 0x56#8), (.abs, 0x4E#8),
       (.absx, 0x5E#8), (.acc, 0x4A#8)] ∧
  ∀ (i : Instr) (s : State), s.mem.wf = true →
    (i.mnemonic = .asl → ∃ m t, operandValue s i.operand = some m ∧ exec i s = .next t ∧
      ∃ r : Byte, r.toNat = m.toNat * 2 % 256 ∧ (t.flag .c = true ↔ m.toNat ≥ 128) ∧
        (i.operand = .acc → t.a = r) ∧ (∀ ea, operandAddr s i.operand = some ea → t.load ea = r) ∧
        SetsNZ r t ∧ Ordinary (regsWritten i) [.n, .z, .c] (storedAddrs s i) i s t) ∧
    (i.mnemonic = .lsr → ∃ m t, operandValue s i.operand = some m ∧ exec i s = .next t ∧
      ∃ r : Byte, r.toNat = m.toNat / 2 ∧ (t.flag .c = true ↔ m.toNat % 2 = 1) ∧
        (i.operand = .acc → t.a = r) ∧ (∀ ea, operandAddr s i.operand = some ea → t.load ea = r) ∧
        SetsNZ r t ∧ Ordinary (regsWritten i) [.n, .z, .c] (storedAddrs s i) i s t)

/-- In every state with memory in canonical form ROL and ROR complete, in both kinds of form: the
old C enters at the vacated end, the bit shifted out becomes C, the result is written back where
the operand came from, N and Z are the result's, everything else is as before. (R163, R164) -/
def Obligations.RotatesGoThroughCarry : Prop :=
  HasEncodings .rol
      [(.zp, 0x26#8), (.zpx, 0x36#8), (.abs, 0x2E#8),
       (.absx, 0x3E#8), (.acc, 0x2A#8)] ∧
  HasEncodings .ror
      [(.zp, 0x66#8), (.zpx, 0x76#8), (.abs, 0x6E#8),
       (.absx, 0x7E#8), (.acc, 0x6A#8)] ∧
  ∀ (i : Instr) (s : State), s.mem.wf = true →
    (i.mnemonic = .rol → ∃ m t, operandValue s i.operand = some m ∧ exec i s = .next t ∧
      ∃ r : Byte, r.toNat = m.toNat * 2 % 256 + (s.flag .c).toNat ∧ (t.flag .c = true ↔ m.toNat ≥ 128) ∧
        (i.operand = .acc → t.a = r) ∧ (∀ ea, operandAddr s i.operand = some ea → t.load ea = r) ∧
        SetsNZ r t ∧ Ordinary (regsWritten i) [.n, .z, .c] (storedAddrs s i) i s t) ∧
    (i.mnemonic = .ror → ∃ m t, operandValue s i.operand = some m ∧ exec i s = .next t ∧
      ∃ r : Byte, r.toNat = m.toNat / 2 + (s.flag .c).toNat * 128 ∧ (t.flag .c = true ↔ m.toNat % 2 = 1) ∧
        (i.operand = .acc → t.a = r) ∧ (∀ ea, operandAddr s i.operand = some ea → t.load ea = r) ∧
        SetsNZ r t ∧ Ordinary (regsWritten i) [.n, .z, .c] (storedAddrs s i) i s t)

/-- Each branch completes in every state: PC is the address after it, plus the signed offset if
the flag of R170's table has the value it gives, all modulo 65536; nothing but PC changes. (R170,
R171, R172, R173, R174, R175, R176, R177, R178) -/
def Obligations.BranchesAddTheOffsetWhenTaken : Prop :=
  HasEncodings .bcc [(.rel, 0x90#8)] ∧
  HasEncodings .bcs [(.rel, 0xB0#8)] ∧
  HasEncodings .beq [(.rel, 0xF0#8)] ∧
  HasEncodings .bmi [(.rel, 0x30#8)] ∧
  HasEncodings .bne [(.rel, 0xD0#8)] ∧
  HasEncodings .bpl [(.rel, 0x10#8)] ∧
  HasEncodings .bvc [(.rel, 0x50#8)] ∧
  HasEncodings .bvs [(.rel, 0x70#8)] ∧
  ∀ (i : Instr) (s : State) (d : Byte) (taken : Bool),
    i.operand = .rel d → branchTaken s i.mnemonic = some taken →
    ∃ t, exec i s = .next t ∧ t = { s with pc := t.pc } ∧
      (t.pc.toNat : Int) = (s.pc.toNat + 2 + if taken then d.toInt else 0) % 65536

/-- In every state with memory in canonical form PHA and PHP complete: the byte at the stack
address of SP is A, or P exactly as it stands, SP is one lower modulo 256, StackOverflow is
signalled exactly when SP was 0x00, no flag and nothing else changes. (R190, R192) -/
def Obligations.PHAAndPHPPush : Prop :=
  HasEncodings .pha [(.imp, 0x48#8)] ∧
  HasEncodings .php [(.imp, 0x08#8)] ∧
  ∀ s : State, s.mem.wf = true →
    (∃ t, exec .pha s = .next t ∧ t.load (stackAddr s.cfg s.sp) = s.a ∧ t.sp = s.sp - 1 ∧
      t.pc = s.pc + 1 ∧ t.diagnostics = s.diagnostics ++ pushSignals s 1 ∧ t.result = s.result ∧
      Frame [.sp] [] [stackAddr s.cfg s.sp] s t) ∧
    (∃ t, exec .php s = .next t ∧ t.load (stackAddr s.cfg s.sp) = s.p ∧ t.sp = s.sp - 1 ∧
      t.pc = s.pc + 1 ∧ t.diagnostics = s.diagnostics ++ pushSignals s 1 ∧ t.result = s.result ∧
      Frame [.sp] [] [stackAddr s.cfg s.sp] s t)

/-- PLA completes in every state: A is the byte at the stack address of SP + 1, SP is one higher
modulo 256, N and Z are A's, StackUnderflow is signalled exactly when SP was 0xFF, memory and
everything else are as before. (R191) -/
def Obligations.PLAPullsAndSetsNZ : Prop :=
  HasEncodings .pla [(.imp, 0x68#8)] ∧
  ∀ s : State, ∃ t, exec .pla s = .next t ∧ t.a = pulledByte s 1 ∧ SetsNZ t.a t ∧
    t.sp = s.sp + 1 ∧ t.pc = s.pc + 1 ∧ t.diagnostics = s.diagnostics ++ pullSignals s 1 ∧
    t.result = s.result ∧ Frame [.a, .sp] [.n, .z] [] s t

/-- PLP completes in every state: each of N, V, D, I, Z, C is its bit of the byte at the stack
address of SP + 1, bits 5 and 4 of P are 1 (the spec's decision D13), SP is one higher,
StackUnderflow is signalled exactly when SP was 0xFF, everything else is as before. (R193, R16,
R22) -/
def Obligations.PLPPullsTheWritableFlags : Prop :=
  HasEncodings .plp [(.imp, 0x28#8)] ∧
  ∀ s : State, ∃ t, exec .plp s = .next t ∧
    (∀ f : Flag, t.flag f = (pulledByte s 1).getLsbD f.index) ∧
    t.p.getLsbD 5 = true ∧ t.p.getLsbD 4 = true ∧
    t.sp = s.sp + 1 ∧ t.pc = s.pc + 1 ∧ t.diagnostics = s.diagnostics ++ pullSignals s 1 ∧
    t = { s with p := t.p, sp := t.sp, pc := t.pc, diagnostics := t.diagnostics }

/-- JMP completes in every state, for every target. (R201) -/
def Obligations.JMPGoesToTheOperand : Prop :=
  HasEncodings .jmp [(.abs, 0x4C#8)] ∧
  ∀ (w : Addr) (s : State), exec (.jmp w) s = .next { s with pc := w }

/-- In every state with memory in canonical form JSR completes: the stack byte at SP holds the
high byte of PC + 2 modulo 65536, the one below it the low byte, SP is two lower, PC is the
operand, StackOverflow is signalled exactly when SP was 0x00 or 0x01, no flag and nothing else
changes. (R202) -/
def Obligations.JSRPushesTheAddressOfItsLastByte : Prop :=
  HasEncodings .jsr [(.abs, 0x20#8)] ∧
  ∀ (w : Addr) (s : State), s.mem.wf = true →
    ∃ t, exec (.jsr w) s = .next t ∧
      (let last := (s.pc.toNat + 2) % 65536
       (t.load (stackAddr s.cfg s.sp)).toNat = last / 256 ∧
       (t.load (stackAddr s.cfg (s.sp - 1))).toNat = last % 256) ∧
      t.sp = s.sp - 2 ∧ t.pc = w ∧ t.diagnostics = s.diagnostics ++ pushSignals s 2 ∧
      t.result = s.result ∧
      Frame [.sp] [] [stackAddr s.cfg s.sp, stackAddr s.cfg (s.sp - 1)] s t

/-- RTS completes in every state: PC is the pulled address plus one modulo 65536, low byte first,
SP is two higher modulo 256, StackUnderflow is signalled exactly when SP was 0xFE or 0xFF, nothing
else changes. (R203) -/
def Obligations.RTSPullsPCAndAddsOne : Prop :=
  HasEncodings .rts [(.imp, 0x60#8)] ∧
  ∀ s : State, ∃ t, exec .rts s = .next t ∧
    t.pc.toNat = ((pulledByte s 2).toNat * 256 + (pulledByte s 1).toNat + 1) % 65536 ∧
    t.sp = s.sp + 2 ∧ t.diagnostics = s.diagnostics ++ pullSignals s 2 ∧
    t = { s with pc := t.pc, sp := t.sp, diagnostics := t.diagnostics }

/-- RTI completes in every state and for both values of RTI_PC_INCREMENT: the six flags are those
of the first pulled byte, bits 5 and 4 of P are 1, PC is the address of the second and third
pulled bytes, low byte first, plus the increment modulo 65536, SP is three higher, StackUnderflow
is signalled exactly when SP was 0xFD, 0xFE or 0xFF, nothing else changes (the spec's decisions
D13 and D14). (R204, R7, R16) -/
def Obligations.RTIPullsPThenPC : Prop :=
  HasEncodings .rti [(.imp, 0x40#8)] ∧
  ∀ s : State, ∃ t, exec .rti s = .next t ∧
    (∀ f : Flag, t.flag f = (pulledByte s 1).getLsbD f.index) ∧
    t.p.getLsbD 5 = true ∧ t.p.getLsbD 4 = true ∧
    t.pc.toNat = ((pulledByte s 3).toNat * 256 + (pulledByte s 2).toNat +
      if s.cfg.rtiPcIncrement then 1 else 0) % 65536 ∧
    t.sp = s.sp + 3 ∧ t.diagnostics = s.diagnostics ++ pullSignals s 3 ∧
    t = { s with p := t.p, pc := t.pc, sp := t.sp, diagnostics := t.diagnostics }

/-- Each of the seven completes in every state: its flag is 0 or 1 as the rule says, every other
bit of P, bits 5 and 4 included, and everything else are as before, PC is one higher. (R210, R211,
R212, R213, R214, R215, R216) -/
def Obligations.FlagInstructionsWriteOneBit : Prop :=
  HasEncodings .clc [(.imp, 0x18#8)] ∧
  HasEncodings .sec [(.imp, 0x38#8)] ∧
  HasEncodings .cli [(.imp, 0x58#8)] ∧
  HasEncodings .sei [(.imp, 0x78#8)] ∧
  HasEncodings .clv [(.imp, 0xB8#8)] ∧
  HasEncodings .cld [(.imp, 0xD8#8)] ∧
  HasEncodings .sed [(.imp, 0xF8#8)] ∧
  ∀ (row : Instr × Flag × Bool) (s : State),
    row ∈ [(.clc, .c, false), (.sec, .c, true), (.cli, .i, false), (.sei, .i, true),
      (.clv, .v, false), (.cld, .d, false), (.sed, .d, true)] →
    ∃ t, exec row.1 s = .next t ∧ t.flag row.2.1 = row.2.2 ∧
      Ordinary [] [row.2.1] [] row.1 s t

/-- NOP completes in every state with PC one higher; the whole step also leaves IR = 0xEA and
result Ok. (R217) -/
def Obligations.NOPOnlyAdvancesPC : Prop :=
  HasEncodings .nop [(.imp, 0xEA#8)] ∧
  (∀ s : State, exec .nop s = .next { s with pc := s.pc + 1 }) ∧
  ∀ s : State, s.load s.pc = 0xEA#8 →
    step s = .next { s with pc := s.pc + 1, ir := 0xEA#8, diagnostics := [], result := .ok }

/-- For all operands and carries the result is the sum modulo 256, the carry out is 1 exactly when
the sum exceeds 255, and the overflow is 1 exactly when the signed sum lies outside -128..127,
which is also the sign rule. (R92) -/
def Obligations.AdditionOverflowsExactlyOutsideTheSignedRange : Prop :=
  ∀ (a m : Byte) (c : Bool),
    let r := addWithCarry a m c
    r.1.toNat = (a.toNat + m.toNat + c.toNat) % 256 ∧
    (r.2.1 = true ↔ a.toNat + m.toNat + c.toNat > 255) ∧
    (r.2.2 = true ↔ a.msb = m.msb ∧ r.1.msb ≠ a.msb) ∧
    (r.2.2 = true ↔ ((a ^^^ r.1) &&& (m ^^^ r.1)).msb = true) ∧
    (r.2.2 = true ↔ a.toInt + m.toInt + c.toNat < -128 ∨ 127 < a.toInt + m.toInt + c.toNat)

/-- The result is a - m - (1 - c) modulo 256, the carry out is 1 exactly when that difference is
not negative, and the overflow is 1 exactly when the signed difference lies outside -128..127 (the
spec's own inference from R92). (R93) -/
def Obligations.SubtractionBorrowsWhenCarryIsClear : Prop :=
  ∀ (a m : Byte) (c : Bool),
    let r := subWithBorrow a m c
    (r.1.toNat : Int) = ((a.toNat : Int) - m.toNat - (1 - c.toNat)) % 256 ∧
    (r.2.1 = true ↔ (a.toNat : Int) - m.toNat - (1 - c.toNat) ≥ 0) ∧
    (r.2.2 = true ↔ a.toInt - m.toInt - (1 - c.toNat) < -128 ∨
      127 < a.toInt - m.toInt - (1 - c.toNat))

/-- For all register and operand values the three outputs of Compare are bit 7 of the result, the
zero test and the carry of SubWithBorrow with C = 1 (the spec's own inference from R93). (R95,
R93) -/
def Obligations.CompareIsSubtractionWithoutBorrow : Prop :=
  ∀ reg m : Byte,
    let r := subWithBorrow reg m true
    compareBytes reg m = (r.1.msb, r.1 == 0x00#8, r.2.1)

/-- As numbers, in every state: ZP is the operand byte; ZPX and ZPY add X or Y modulo 256; ABS is
the operand word; INDX reads its pointer, low byte first, at (b + X) modulo 256 and one further
modulo 256. (R72, R73, R74, R75, R78) -/
def Obligations.ZeroPageAndPointerModesAsNumbers : Prop :=
  ∀ (s : State) (b : Byte) (w : Addr),
    (effAddr s (.zp b)).toNat = b.toNat ∧
    (effAddr s (.zpx b)).toNat = (b.toNat + s.x.toNat) % 256 ∧
    (effAddr s (.zpy b)).toNat = (b.toNat + s.y.toNat) % 256 ∧
    effAddr s (.abs w) = w ∧
    (effAddr s (.indx b)).toNat =
      (s.mem.read ((b.toNat + s.x.toNat + 1) % 256)).toNat * 256 +
        (s.mem.read ((b.toNat + s.x.toNat) % 256)).toNat

/-- As numbers, in every state: ABSX and ABSY are the operand word plus X or Y modulo 65536; INDY
is the pointer plus Y modulo 65536, the pointer's high byte read at b + 1 (0x0100 when b is 0xFF),
or, with INDY_PTR_ZP_WRAP, at (b + 1) modulo 256 (decisions D5 and D6 of the spec). (R76, R77,
R79) -/
def Obligations.IndexedModesWrapAt65536 : Prop :=
  ∀ (s : State) (b : Byte) (w : Addr),
    (effAddr s (.absx w)).toNat = (w.toNat + s.x.toNat) % 65536 ∧
    (effAddr s (.absy w)).toNat = (w.toNat + s.y.toNat) % 65536 ∧
    (let hiAt := if s.cfg.indyPtrZpWrap then (b.toNat + 1) % 256 else b.toNat + 1
     (effAddr s (.indy b)).toNat =
       ((s.mem.read hiAt).toNat * 256 + (s.mem.read b.toNat).toNat + s.y.toNat) % 65536)

/-- Two states with the same X, Y, memory and configuration resolve every operand to the same
address. (R70) -/
def Obligations.ResolverReadsXYMemoryAndConfigOnly : Prop :=
  ∀ (s t : State) (m : MemOperand),
    t.x = s.x → t.y = s.y → t.mem = s.mem → t.cfg = s.cfg → effAddr t m = effAddr s m

/-- For every configuration and every SP the stack address is STACK_BASE plus SP with no carry out
of the window, and STACK_BASE is a multiple of 256. (R25, R185, R7, R36) -/
def Obligations.StackAddressIsBasePlusSP : Prop :=
  ∀ (cfg : Cfg) (sp : Byte),
    (stackAddr cfg sp).toNat = cfg.stackBase.toNat + sp.toNat ∧ cfg.stackBase.toNat % 256 = 0

/-- In every state with memory in canonical form, with every SP (where SP wraps both signals are
raised): pull after push v returns v and the SP of before; PHA followed by PLA leaves A and SP as
before (the case SP = 0x00 is the spec's own inference). (R188, R190, R191) -/
def Obligations.PullAfterPushGivesTheByteBack : Prop :=
  ∀ s : State, s.mem.wf = true →
    (∀ v, (pull (push v s)).1 = v ∧ (pull (push v s)).2.sp = s.sp ∧
      (pull (push v s)).2.diagnostics = s.diagnostics ++
        if s.sp = 0x00#8 then [.stackOverflow, .stackUnderflow] else []) ∧
    ∀ t u, exec .pha s = .next t → exec .pla t = .next u → u.a = s.a ∧ u.sp = s.sp

/-- In every state with memory in canonical form and bits 5 and 4 of P at 1 (the invariant of
R16), PHP followed by PLP leaves P and SP as before. (R192, R193, R16) -/
def Obligations.PHPThenPLPRestoresP : Prop :=
  ∀ s t u : State, Inv s → exec .php s = .next t → exec .plp t = .next u →
    u.p = s.p ∧ u.sp = s.sp

/-- From every state with memory in canonical form whose bytes at PC are a JSR, the step goes to
the target; from every later state with SP, the configuration and the two stack bytes as that step
left them and an RTS at its PC, the step returns to the address of the JSR plus 3 modulo 65536
with SP as before the JSR, for every address, target and SP, wraps included (an inference the spec
marks as its own). (R205, R202, R203) -/
def Obligations.JSRThenRTSResumesAfterTheCall : Prop :=
  ∀ (s : State) (w : Addr) (rest : List Byte), s.mem.wf = true →
    decode [s.load s.pc, s.load (s.pc + 1), s.load (s.pc + 2)] = .ok (.jsr w, rest) →
    ∃ t, step s = .next t ∧ t.pc = w ∧
      ∀ u : State, u.sp = t.sp → u.cfg = t.cfg →
        (∀ k, k ∈ [1, 2] → u.load (stackAddr t.cfg (t.sp + k)) = t.load (stackAddr t.cfg (t.sp + k))) →
        u.load u.pc = 0x60#8 →
        ∃ v, step u = .next v ∧ v.pc.toNat = (s.pc.toNat + 3) % 65536 ∧ v.sp = s.sp

/-- In every state with memory in canonical form, for every two addresses, a load after a store
gives the stored byte at that address and the byte of before at every other; the store keeps the
canonical form (the form is the model's choice, log 9). (R35, R33, R38) -/
def Obligations.LoadAfterStoreGivesTheByte : Prop :=
  ∀ (s : State) (a b : Addr) (v : Byte), s.mem.wf = true →
    (s.store a v).load b = (if b = a then v else s.load b) ∧ (s.store a v).mem.wf = true

/-- Equality of memories as data is equality of their bytes (the form is the model's choice, log
9). (20_memory.md R30, R35) -/
def Obligations.CanonicalMemoriesWithEqualBytesAreEqual : Prop :=
  ∀ m m' : Memory, m.wf = true → m'.wf = true →
    (∀ a : Addr, m.read a.toNat = m'.read a.toNat) → m = m'

/-- From every state with memory in canonical form whose bytes at PC are STA absolute with the
address of the following byte as operand, the step leaves PC there, and the step after it fetches
A as its opcode byte (an inference the spec marks as its own). (R42, R114) -/
def Obligations.StoreIsSeenByTheNextFetch : Prop :=
  ∀ (s : State) (rest : List Byte), s.mem.wf = true →
    decode [s.load s.pc, s.load (s.pc + 1), s.load (s.pc + 2)] = .ok (.staAbs (s.pc + 3), rest) →
    ∃ t, step s = .next t ∧ t.pc = s.pc + 3 ∧ (stepPort t).ir = s.a

/-- From every state, for every configuration: A = X = Y = IR = 0x00, P = 0x30, SP = SP_RESET, PC
= START_ADDR, memory and configuration as before; the default SP_RESET is 0xFF. (R250) -/
def Obligations.ResetWritesAllSevenRegisters : Prop :=
  ∀ s : State, (resetCore s).a = 0x00#8 ∧ (resetCore s).x = 0x00#8 ∧ (resetCore s).y = 0x00#8 ∧
    (resetCore s).p = 0b00110000#8 ∧ (resetCore s).sp = s.cfg.spReset ∧
    (resetCore s).pc = s.cfg.startAddr ∧ (resetCore s).ir = 0x00#8 ∧
    (resetCore s).mem = s.mem ∧ (resetCore s).cfg = s.cfg ∧ Cfg.default.spReset = 0xFF#8

/-- State.reset, and the state a launch makes of any configuration and any memory in canonical
form, have bits 5 and 4 of P at 1, memory in canonical form (the form, and that State.reset lists
no byte, are the model's choice, log 9) and at most one signal in the diagnostics (that these are
a field of the state, empty after reset, is the model's choice, log 8). (R16, R28, R254) -/
def Obligations.ResetMeetsTheInvariant : Prop :=
  Inv State.reset ∧ ∀ (cfg : Cfg) (mem : Memory), mem.wf = true → Inv (State.launch cfg mem)

/-- From every state that meets the invariant, reached or not, the state after a step meets it,
and so does the state the step port answers after UnknownOpcode: bits 5 and 4 of P are 1, the step
signals at most once (its signals as a field of the state are the model's choice, log 8), memory
is in canonical form (the model's choice, log 9); the configuration never changes (that it rides
in the state is the model's choice, log 1). (R16, R22, R187, R7) -/
def Obligations.EveryStepKeepsTheInvariant : Prop :=
  ∀ s : State, Inv s → Inv (stepPort s) ∧ (stepPort s).cfg = s.cfg ∧
    ∀ t, step s = .next t → Inv t ∧ t = stepPort s

/-- From every state that meets the invariant, every move of the host (reset, a byte, a register)
gives one that meets it; that a host write of P leaves bits 5 and 4 at 1 is the model's choice
(log 14), and so are the canonical form of memory that a byte written and a reset keep (log 9) and
the diagnostics as a field of the state (log 8). (R26, R44, R252, R16) -/
def Obligations.HostMovesKeepTheInvariant : Prop :=
  ∀ (s : State) (mv : HostMove), Inv s → Inv (hostMove s mv)

/-- From every state s and for every fuel n + 1, with t the state the run loop answers and u a
state that k <= n steps from s lead to, every one of them Ok: if t is HALTED, then some such u has
0x00 at PC and t is u with IR = 0x00, no diagnostic and result Halted, so t's IR and the byte at
t's PC are 0x00; if t is in ERROR, then some such u has a byte of R57's list at PC (not 0x6C under
the extension, log 4) and t is u with IR = that byte, no diagnostic and result UnknownOpcode(byte,
PC); in both cases a further step answers t again; if t is RUNNING, t is the state after n + 1
steps, every one of them Ok. That result and diagnostics are fields of the state, and Halted a
next state, are the model's choice (logs 8, 6); UnknownOpcode as a fault with a state after it is
log 7. (R255, R106, R236, R231, R232) -/
def Obligations.RunsEndAtAHaltByteOrAnUnknownOpcode : Prop :=
  ∀ (s : State) (n : Nat),
    let t := runLoop (n + 1) s
    (t.runState = .halted → t.ir = 0x00#8 ∧ t.load t.pc = 0x00#8 ∧ stepPort t = t ∧
      ∃ k, k ≤ n ∧ (∀ j, j < k → (stepPort^[j + 1] s).result = .ok) ∧
        t = { stepPort^[k] s with ir := 0x00#8, diagnostics := [], result := .halted }) ∧
    (t.runState = .error → t.ir = t.load t.pc ∧ t.ir ∈ unknownBytes ∧ extended t = false ∧
      stepPort t = t ∧
      ∃ k, k ≤ n ∧ (∀ j, j < k → (stepPort^[j + 1] s).result = .ok) ∧
        t = { stepPort^[k] s with
          ir := t.ir, diagnostics := [], result := .unknownOpcode t.ir t.pc }) ∧
    (t.runState = .running → t = stepPort^[n + 1] s ∧
      ∀ j, j ≤ n → (stepPort^[j + 1] s).result = .ok)

/-- With the optional extension on (log 4) and 0x6C at PC, the step answers a next state with PC
the word at the operand's address, whose high byte is read in the pointer's own page or, in the
variant, at the next address (log 5); only PC, IR and the outputs change. (R59,
93_implementation_defined.md U8) -/
def Obligations.ExtensionJumpsIndirect : Prop :=
  ∀ s : State, s.cfg.extJmpIndirect = true → s.load s.pc = 0x6C#8 →
    ∃ t, step s = .next t ∧
      (let ptr := (s.load (s.pc + 2)).toNat * 256 + (s.load (s.pc + 1)).toNat
       let hiAt := if s.cfg.jmpIndPageWrap then ptr / 256 * 256 + (ptr + 1) % 256
         else (ptr + 1) % 65536
       t.pc.toNat = (s.mem.read hiAt).toNat * 256 + (s.mem.read ptr).toNat) ∧
      t = { s with pc := t.pc, ir := 0x6C#8, diagnostics := [], result := .ok }
end

