-- ==== Sys2Proof/Laws/Bits.lean ====
section
/-! SUPPORT. Bit-level and number-level readings of the helpers of Machine/Bits.lean. -/

namespace Sys2Proof

theorem getLsbD_writeBit (p : Byte) {k : Nat} (hk : k < 8) (b : Bool) (j : Nat) :
    (writeBit p k b).getLsbD j = if j = k then b else p.getLsbD j := by
  unfold writeBit
  by_cases hj : j < 8
  · cases b <;> simp [hj] <;> by_cases h : j = k <;> simp [h] <;> omega
  · have : j ≠ k := by omega
    rw [if_neg this, BitVec.getLsbD_of_ge _ _ (by omega), BitVec.getLsbD_of_ge _ _ (by omega)]

theorem toNat_hiLo (hi lo : Byte) : (hiLo hi lo).toNat = hi.toNat * 256 + lo.toNat := by
  unfold hiLo
  rw [BitVec.toNat_append, ← Nat.shiftLeft_add_eq_or_of_lt lo.isLt, Nat.shiftLeft_eq]

theorem toNat_zext16 (v : Byte) : (zext16 v).toNat = v.toNat := by
  unfold zext16
  rw [BitVec.toNat_setWidth, Nat.mod_eq_of_lt (by have := v.isLt; omega)]

theorem toNat_lo8 (v : Addr) : (lo8 v).toNat = v.toNat % 256 := by
  unfold lo8
  rw [BitVec.extractLsb'_toNat, Nat.shiftRight_zero]

theorem toNat_hi8 (v : Addr) : (hi8 v).toNat = v.toNat / 256 := by
  unfold hi8
  rw [BitVec.extractLsb'_toNat, Nat.shiftRight_eq_div_pow, Nat.mod_eq_of_lt]
  have := v.isLt
  omega

@[simp] theorem hiLo_hi8_lo8 (v : Addr) : hiLo (hi8 v) (lo8 v) = v := by
  apply BitVec.eq_of_toNat_eq
  rw [toNat_hiLo, toNat_hi8, toNat_lo8]
  omega

@[simp] theorem lo8_hiLo (hi lo : Byte) : lo8 (hiLo hi lo) = lo := by
  apply BitVec.eq_of_toNat_eq
  rw [toNat_lo8, toNat_hiLo]
  have := lo.isLt
  omega

@[simp] theorem hi8_hiLo (hi lo : Byte) : hi8 (hiLo hi lo) = hi := by
  apply BitVec.eq_of_toNat_eq
  rw [toNat_hi8, toNat_hiLo]
  have := lo.isLt
  omega

/-- The offset of a branch as a number: `signed8` modulo 65536. -/
theorem toInt_sext16 (v : Byte) : (sext16 v).toInt = v.toInt := by
  unfold sext16
  exact BitVec.toInt_signExtend_of_le (by decide)

end Sys2Proof
end

