-- ==== Sys2Proof/Laws/Decode.lean ====
section
/-! SUPPORT. The two opcode tables side by side: the entry that the opcode map has for the opcode byte
of an instruction makes that instruction from the operand bytes of its encoding. -/

namespace Sys2Proof

/-- The entry makes `i` from exactly the operand bytes `bs`. -/
def Form.Makes (i : Instr) : Form → List Byte → Prop
  | .f1 j, bs => j = i ∧ bs = []
  | .f2 mk, bs => ∃ b, bs = [b] ∧ mk b = i
  | .f3 mk, bs => ∃ w, bs = [lo8 w, hi8 w] ∧ mk w = i

theorem opcodeMap_makes (i : Instr) :
    ∃ f, decodeOpcode (opcodeOf i) = some f ∧ f.Makes i i.operand.bytes := by
  cases i <;> simp only [opcodeOf] <;> refine ⟨_, rfl, ?_⟩ <;>
    first | exact ⟨rfl, rfl⟩ | exact ⟨_, rfl, rfl⟩

/-- The opcode byte of an instruction has an entry in the map. -/
theorem opcodeMap_isSome (i : Instr) : (decodeOpcode (opcodeOf i)).isSome = true := by
  obtain ⟨f, h, _⟩ := opcodeMap_makes i
  rw [h, Option.isSome_some]

/-! What `decode` does with a first byte, by its entry in the map. -/

theorem decode_of_none {op : Byte} (h : decodeOpcode op = none) (bytes : List Byte) :
    decode (op :: bytes) = .error (.unknownOpcode op) := by
  simp only [decode, h]

theorem decode_of_f1 {op : Byte} {i : Instr} (h : decodeOpcode op = some (.f1 i))
    (bytes : List Byte) : decode (op :: bytes) = .ok (i, bytes) := by
  simp only [decode, h]

theorem decode_of_f2 {op : Byte} {mk : Byte → Instr} (h : decodeOpcode op = some (.f2 mk))
    (b1 : Byte) (bytes : List Byte) : decode (op :: b1 :: bytes) = .ok (mk b1, bytes) := by
  simp only [decode, h]

theorem decode_of_f3 {op : Byte} {mk : Addr → Instr} (h : decodeOpcode op = some (.f3 mk))
    (b1 b2 : Byte) (bytes : List Byte) :
    decode (op :: b1 :: b2 :: bytes) = .ok (mk (hiLo b2 b1), bytes) := by
  simp only [decode, h]

end Sys2Proof
end

