-- ==== Sys2Proof/Laws/Encodings.lean ====
section
/-! SUPPORT. The rows of spec/opcode_table.json by mnemonic, and that these are the mode and the opcode
byte of every form of the mnemonic and of no other instruction. -/

namespace Sys2Proof

/-- The mode and opcode byte of every row of a mnemonic. -/
def Mnemonic.encodings : Mnemonic → List (Mode × Byte)
  | .lda => [(.imm, 0xA9#8), (.zp, 0xA5#8), (.zpx, 0xB5#8), (.abs, 0xAD#8), (.absx, 0xBD#8),
      (.absy, 0xB9#8), (.indx, 0xA1#8), (.indy, 0xB1#8)]
  | .ldx => [(.imm, 0xA2#8), (.zp, 0xA6#8), (.zpy, 0xB6#8), (.abs, 0xAE#8), (.absy, 0xBE#8)]
  | .ldy => [(.imm, 0xA0#8), (.zp, 0xA4#8), (.zpx, 0xB4#8), (.abs, 0xAC#8), (.absx, 0xBC#8)]
  | .sta => [(.zp, 0x85#8), (.zpx, 0x95#8), (.abs, 0x8D#8), (.absx, 0x9D#8), (.absy, 0x99#8),
      (.indx, 0x81#8), (.indy, 0x91#8)]
  | .stx => [(.zp, 0x86#8), (.zpy, 0x96#8), (.abs, 0x8E#8)]
  | .sty => [(.zp, 0x84#8), (.zpx, 0x94#8), (.abs, 0x8C#8)]
  | .tax => [(.imp, 0xAA#8)]
  | .tay => [(.imp, 0xA8#8)]
  | .txa => [(.imp, 0x8A#8)]
  | .tya => [(.imp, 0x98#8)]
  | .tsx => [(.imp, 0xBA#8)]
  | .txs => [(.imp, 0x9A#8)]
  | .adc => [(.imm, 0x69#8), (.zp, 0x65#8), (.zpx, 0x75#8), (.abs, 0x6D#8), (.absx, 0x7D#8),
      (.absy, 0x79#8), (.indx, 0x61#8), (.indy, 0x71#8)]
  | .sbc => [(.imm, 0xE9#8), (.zp, 0xE5#8), (.zpx, 0xF5#8), (.abs, 0xED#8), (.absx, 0xFD#8),
      (.absy, 0xF9#8), (.indx, 0xE1#8), (.indy, 0xF1#8)]
  | .cmp => [(.imm, 0xC9#8), (.zp, 0xC5#8), (.zpx, 0xD5#8), (.abs, 0xCD#8), (.absx, 0xDD#8),
      (.absy, 0xD9#8), (.indx, 0xC1#8), (.indy, 0xD1#8)]
  | .cpx => [(.imm, 0xE0#8), (.zp, 0xE4#8), (.abs, 0xEC#8)]
  | .cpy => [(.imm, 0xC0#8), (.zp, 0xC4#8), (.abs, 0xCC#8)]
  | .inc => [(.zp, 0xE6#8), (.zpx, 0xF6#8), (.abs, 0xEE#8), (.absx, 0xFE#8)]
  | .dec => [(.zp, 0xC6#8), (.zpx, 0xD6#8), (.abs, 0xCE#8), (.absx, 0xDE#8)]
  | .inx => [(.imp, 0xE8#8)]
  | .iny => [(.imp, 0xC8#8)]
  | .dex => [(.imp, 0xCA#8)]
  | .dey => [(.imp, 0x88#8)]
  | .and => [(.imm, 0x29#8), (.zp, 0x25#8), (.zpx, 0x35#8), (.abs, 0x2D#8), (.absx, 0x3D#8),
      (.absy, 0x39#8), (.indx, 0x21#8), (.indy, 0x31#8)]
  | .ora => [(.imm, 0x09#8), (.zp, 0x05#8), (.zpx, 0x15#8), (.abs, 0x0D#8), (.absx, 0x1D#8),
      (.absy, 0x19#8), (.indx, 0x01#8), (.indy, 0x11#8)]
  | .eor => [(.imm, 0x49#8), (.zp, 0x45#8), (.zpx, 0x55#8), (.abs, 0x4D#8), (.absx, 0x5D#8),
      (.absy, 0x59#8), (.indx, 0x41#8), (.indy, 0x51#8)]
  | .bit => [(.zp, 0x24#8), (.abs, 0x2C#8)]
  | .asl => [(.zp, 0x06#8), (.zpx, 0x16#8), (.abs, 0x0E#8), (.absx, 0x1E#8), (.acc, 0x0A#8)]
  | .lsr => [(.zp, 0x46#8), (.zpx, 0x56#8), (.abs, 0x4E#8), (.absx, 0x5E#8), (.acc, 0x4A#8)]
  | .rol => [(.zp, 0x26#8), (.zpx, 0x36#8), (.abs, 0x2E#8), (.absx, 0x3E#8), (.acc, 0x2A#8)]
  | .ror => [(.zp, 0x66#8), (.zpx, 0x76#8), (.abs, 0x6E#8), (.absx, 0x7E#8), (.acc, 0x6A#8)]
  | .bcc => [(.rel, 0x90#8)]
  | .bcs => [(.rel, 0xB0#8)]
  | .beq => [(.rel, 0xF0#8)]
  | .bmi => [(.rel, 0x30#8)]
  | .bne => [(.rel, 0xD0#8)]
  | .bpl => [(.rel, 0x10#8)]
  | .bvc => [(.rel, 0x50#8)]
  | .bvs => [(.rel, 0x70#8)]
  | .pha => [(.imp, 0x48#8)]
  | .pla => [(.imp, 0x68#8)]
  | .php => [(.imp, 0x08#8)]
  | .plp => [(.imp, 0x28#8)]
  | .jmp => [(.abs, 0x4C#8)]
  | .jsr => [(.abs, 0x20#8)]
  | .rts => [(.imp, 0x60#8)]
  | .rti => [(.imp, 0x40#8)]
  | .clc => [(.imp, 0x18#8)]
  | .sec => [(.imp, 0x38#8)]
  | .cli => [(.imp, 0x58#8)]
  | .sei => [(.imp, 0x78#8)]
  | .clv => [(.imp, 0xB8#8)]
  | .cld => [(.imp, 0xD8#8)]
  | .sed => [(.imp, 0xF8#8)]
  | .nop => [(.imp, 0xEA#8)]
  | .brk => [(.imp, 0x00#8)]

theorem encoding_mem (i : Instr) : (i.operand.mode, opcodeOf i) ∈ i.mnemonic.encodings := by
  cases i <;> exact of_decide_eq_true rfl

/-- The mnemonic of what an entry makes. -/
def Form.mnemonic : Form → Mnemonic
  | .f1 i => i.mnemonic
  | .f2 mk => (mk 0).mnemonic
  | .f3 mk => (mk 0).mnemonic

theorem mnemonic_opcodeOf (i : Instr) :
    (decodeOpcode (opcodeOf i)).map Form.mnemonic = some i.mnemonic := by
  cases i <;> simp only [opcodeOf] <;> rfl

theorem encodings_mnemonic (m : Mnemonic) :
    ∀ row ∈ m.encodings, (decodeOpcode row.2).map Form.mnemonic = some m := by
  cases m <;> decide

theorem hasEncodings (m : Mnemonic) : Machine.HasEncodings m m.encodings := by
  intro i
  constructor
  · rintro rfl
    exact encoding_mem i
  · intro h
    have := encodings_mnemonic m _ h
    rw [mnemonic_opcodeOf] at this
    exact Option.some.inj this

end Sys2Proof
end

