-- ==== Sys2Proof/Laws/Exec.lean ====
section
/-! SUPPORT. Every form of a mnemonic runs the mnemonic's shared meaning on its operand: what a proof
about a mnemonic needs of `exec`, with no case split over the forms left to do. -/

namespace Sys2Proof.Machine

theorem exec_lda {i : Instr} (h : i.mnemonic = .lda) (s : State) : ∃ o, exec i s = ldaOp o s ∧
    operandValue s i.operand = some (sourceValue s o) ∧ i.length = o.length := by
  cases i <;> first | (cases h; done) | exact ⟨_, rfl, rfl, rfl⟩

theorem exec_ldx {i : Instr} (h : i.mnemonic = .ldx) (s : State) : ∃ o, exec i s = ldxOp o s ∧
    operandValue s i.operand = some (sourceValue s o) ∧ i.length = o.length := by
  cases i <;> first | (cases h; done) | exact ⟨_, rfl, rfl, rfl⟩

theorem exec_ldy {i : Instr} (h : i.mnemonic = .ldy) (s : State) : ∃ o, exec i s = ldyOp o s ∧
    operandValue s i.operand = some (sourceValue s o) ∧ i.length = o.length := by
  cases i <;> first | (cases h; done) | exact ⟨_, rfl, rfl, rfl⟩

theorem exec_adc {i : Instr} (h : i.mnemonic = .adc) (s : State) : ∃ o, exec i s = adcOp o s ∧
    operandValue s i.operand = some (sourceValue s o) ∧ i.length = o.length := by
  cases i <;> first | (cases h; done) | exact ⟨_, rfl, rfl, rfl⟩

theorem exec_sbc {i : Instr} (h : i.mnemonic = .sbc) (s : State) : ∃ o, exec i s = sbcOp o s ∧
    operandValue s i.operand = some (sourceValue s o) ∧ i.length = o.length := by
  cases i <;> first | (cases h; done) | exact ⟨_, rfl, rfl, rfl⟩

theorem exec_cmp {i : Instr} (h : i.mnemonic = .cmp) (s : State) : ∃ o, exec i s = cmpOp o s ∧
    operandValue s i.operand = some (sourceValue s o) ∧ i.length = o.length := by
  cases i <;> first | (cases h; done) | exact ⟨_, rfl, rfl, rfl⟩

theorem exec_cpx {i : Instr} (h : i.mnemonic = .cpx) (s : State) : ∃ o, exec i s = cpxOp o s ∧
    operandValue s i.operand = some (sourceValue s o) ∧ i.length = o.length := by
  cases i <;> first | (cases h; done) | exact ⟨_, rfl, rfl, rfl⟩

theorem exec_cpy {i : Instr} (h : i.mnemonic = .cpy) (s : State) : ∃ o, exec i s = cpyOp o s ∧
    operandValue s i.operand = some (sourceValue s o) ∧ i.length = o.length := by
  cases i <;> first | (cases h; done) | exact ⟨_, rfl, rfl, rfl⟩

theorem exec_and {i : Instr} (h : i.mnemonic = .and) (s : State) : ∃ o, exec i s = andOp o s ∧
    operandValue s i.operand = some (sourceValue s o) ∧ i.length = o.length := by
  cases i <;> first | (cases h; done) | exact ⟨_, rfl, rfl, rfl⟩

theorem exec_ora {i : Instr} (h : i.mnemonic = .ora) (s : State) : ∃ o, exec i s = oraOp o s ∧
    operandValue s i.operand = some (sourceValue s o) ∧ i.length = o.length := by
  cases i <;> first | (cases h; done) | exact ⟨_, rfl, rfl, rfl⟩

theorem exec_eor {i : Instr} (h : i.mnemonic = .eor) (s : State) : ∃ o, exec i s = eorOp o s ∧
    operandValue s i.operand = some (sourceValue s o) ∧ i.length = o.length := by
  cases i <;> first | (cases h; done) | exact ⟨_, rfl, rfl, rfl⟩

theorem exec_bit {i : Instr} (h : i.mnemonic = .bit) (s : State) : ∃ o, exec i s = bitOp o s ∧
    operandValue s i.operand = some (sourceValue s o) ∧ i.length = o.length := by
  cases i <;> first | (cases h; done) | exact ⟨_, rfl, rfl, rfl⟩

theorem exec_sta {i : Instr} (h : i.mnemonic = .sta) (s : State) : ∃ o, exec i s = staOp o s ∧
    i.operand = .mem o ∧ i.length = o.mode.length := by
  cases i <;> first | (cases h; done) | exact ⟨_, rfl, rfl, rfl⟩

theorem exec_stx {i : Instr} (h : i.mnemonic = .stx) (s : State) : ∃ o, exec i s = stxOp o s ∧
    i.operand = .mem o ∧ i.length = o.mode.length := by
  cases i <;> first | (cases h; done) | exact ⟨_, rfl, rfl, rfl⟩

theorem exec_sty {i : Instr} (h : i.mnemonic = .sty) (s : State) : ∃ o, exec i s = styOp o s ∧
    i.operand = .mem o ∧ i.length = o.mode.length := by
  cases i <;> first | (cases h; done) | exact ⟨_, rfl, rfl, rfl⟩

theorem exec_inc {i : Instr} (h : i.mnemonic = .inc) (s : State) : ∃ o, exec i s = incOp o s ∧
    i.operand = .mem o ∧ i.length = o.mode.length := by
  cases i <;> first | (cases h; done) | exact ⟨_, rfl, rfl, rfl⟩

theorem exec_dec {i : Instr} (h : i.mnemonic = .dec) (s : State) : ∃ o, exec i s = decOp o s ∧
    i.operand = .mem o ∧ i.length = o.mode.length := by
  cases i <;> first | (cases h; done) | exact ⟨_, rfl, rfl, rfl⟩

/-- The operand of a shift or rotate. -/
def placeOperand : Place → Operand
  | .acc => .acc
  | .mem m => .mem m

theorem exec_asl {i : Instr} (h : i.mnemonic = .asl) (s : State) : ∃ o, exec i s = aslOp o s ∧
    i.operand = placeOperand o ∧ i.length = o.length := by
  cases i <;> first
    | (cases h; done)
    | exact ⟨.acc, rfl, rfl, rfl⟩
    | exact ⟨.mem _, rfl, rfl, rfl⟩

theorem exec_lsr {i : Instr} (h : i.mnemonic = .lsr) (s : State) : ∃ o, exec i s = lsrOp o s ∧
    i.operand = placeOperand o ∧ i.length = o.length := by
  cases i <;> first
    | (cases h; done)
    | exact ⟨.acc, rfl, rfl, rfl⟩
    | exact ⟨.mem _, rfl, rfl, rfl⟩

theorem exec_rol {i : Instr} (h : i.mnemonic = .rol) (s : State) : ∃ o, exec i s = rolOp o s ∧
    i.operand = placeOperand o ∧ i.length = o.length := by
  cases i <;> first
    | (cases h; done)
    | exact ⟨.acc, rfl, rfl, rfl⟩
    | exact ⟨.mem _, rfl, rfl, rfl⟩

theorem exec_ror {i : Instr} (h : i.mnemonic = .ror) (s : State) : ∃ o, exec i s = rorOp o s ∧
    i.operand = placeOperand o ∧ i.length = o.length := by
  cases i <;> first
    | (cases h; done)
    | exact ⟨.acc, rfl, rfl, rfl⟩
    | exact ⟨.mem _, rfl, rfl, rfl⟩

end Sys2Proof.Machine
end

