-- ==== Sys2Proof/Laws/State.lean ====
section
/-! SUPPORT. One lemma per field of `State` per register update, true by `rfl`, so that no proof
unfolds a record update. -/

namespace Sys2Proof.Machine.State

@[simp] theorem setA_a (s : State) (v : Byte) : (s.setA v).a = v := rfl
@[simp] theorem setA_x (s : State) (v : Byte) : (s.setA v).x = s.x := rfl
@[simp] theorem setA_y (s : State) (v : Byte) : (s.setA v).y = s.y := rfl
@[simp] theorem setA_p (s : State) (v : Byte) : (s.setA v).p = s.p := rfl
@[simp] theorem setA_sp (s : State) (v : Byte) : (s.setA v).sp = s.sp := rfl
@[simp] theorem setA_pc (s : State) (v : Byte) : (s.setA v).pc = s.pc := rfl
@[simp] theorem setA_ir (s : State) (v : Byte) : (s.setA v).ir = s.ir := rfl
@[simp] theorem setA_mem (s : State) (v : Byte) : (s.setA v).mem = s.mem := rfl
@[simp] theorem setA_cfg (s : State) (v : Byte) : (s.setA v).cfg = s.cfg := rfl
@[simp] theorem setA_diagnostics (s : State) (v : Byte) : (s.setA v).diagnostics = s.diagnostics := rfl
@[simp] theorem setA_result (s : State) (v : Byte) : (s.setA v).result = s.result := rfl

@[simp] theorem setX_a (s : State) (v : Byte) : (s.setX v).a = s.a := rfl
@[simp] theorem setX_x (s : State) (v : Byte) : (s.setX v).x = v := rfl
@[simp] theorem setX_y (s : State) (v : Byte) : (s.setX v).y = s.y := rfl
@[simp] theorem setX_p (s : State) (v : Byte) : (s.setX v).p = s.p := rfl
@[simp] theorem setX_sp (s : State) (v : Byte) : (s.setX v).sp = s.sp := rfl
@[simp] theorem setX_pc (s : State) (v : Byte) : (s.setX v).pc = s.pc := rfl
@[simp] theorem setX_ir (s : State) (v : Byte) : (s.setX v).ir = s.ir := rfl
@[simp] theorem setX_mem (s : State) (v : Byte) : (s.setX v).mem = s.mem := rfl
@[simp] theorem setX_cfg (s : State) (v : Byte) : (s.setX v).cfg = s.cfg := rfl
@[simp] theorem setX_diagnostics (s : State) (v : Byte) : (s.setX v).diagnostics = s.diagnostics := rfl
@[simp] theorem setX_result (s : State) (v : Byte) : (s.setX v).result = s.result := rfl

@[simp] theorem setY_a (s : State) (v : Byte) : (s.setY v).a = s.a := rfl
@[simp] theorem setY_x (s : State) (v : Byte) : (s.setY v).x = s.x := rfl
@[simp] theorem setY_y (s : State) (v : Byte) : (s.setY v).y = v := rfl
@[simp] theorem setY_p (s : State) (v : Byte) : (s.setY v).p = s.p := rfl
@[simp] theorem setY_sp (s : State) (v : Byte) : (s.setY v).sp = s.sp := rfl
@[simp] theorem setY_pc (s : State) (v : Byte) : (s.setY v).pc = s.pc := rfl
@[simp] theorem setY_ir (s : State) (v : Byte) : (s.setY v).ir = s.ir := rfl
@[simp] theorem setY_mem (s : State) (v : Byte) : (s.setY v).mem = s.mem := rfl
@[simp] theorem setY_cfg (s : State) (v : Byte) : (s.setY v).cfg = s.cfg := rfl
@[simp] theorem setY_diagnostics (s : State) (v : Byte) : (s.setY v).diagnostics = s.diagnostics := rfl
@[simp] theorem setY_result (s : State) (v : Byte) : (s.setY v).result = s.result := rfl

@[simp] theorem setP_a (s : State) (v : Byte) : (s.setP v).a = s.a := rfl
@[simp] theorem setP_x (s : State) (v : Byte) : (s.setP v).x = s.x := rfl
@[simp] theorem setP_y (s : State) (v : Byte) : (s.setP v).y = s.y := rfl
@[simp] theorem setP_p (s : State) (v : Byte) : (s.setP v).p = v := rfl
@[simp] theorem setP_sp (s : State) (v : Byte) : (s.setP v).sp = s.sp := rfl
@[simp] theorem setP_pc (s : State) (v : Byte) : (s.setP v).pc = s.pc := rfl
@[simp] theorem setP_ir (s : State) (v : Byte) : (s.setP v).ir = s.ir := rfl
@[simp] theorem setP_mem (s : State) (v : Byte) : (s.setP v).mem = s.mem := rfl
@[simp] theorem setP_cfg (s : State) (v : Byte) : (s.setP v).cfg = s.cfg := rfl
@[simp] theorem setP_diagnostics (s : State) (v : Byte) : (s.setP v).diagnostics = s.diagnostics := rfl
@[simp] theorem setP_result (s : State) (v : Byte) : (s.setP v).result = s.result := rfl

@[simp] theorem setSP_a (s : State) (v : Byte) : (s.setSP v).a = s.a := rfl
@[simp] theorem setSP_x (s : State) (v : Byte) : (s.setSP v).x = s.x := rfl
@[simp] theorem setSP_y (s : State) (v : Byte) : (s.setSP v).y = s.y := rfl
@[simp] theorem setSP_p (s : State) (v : Byte) : (s.setSP v).p = s.p := rfl
@[simp] theorem setSP_sp (s : State) (v : Byte) : (s.setSP v).sp = v := rfl
@[simp] theorem setSP_pc (s : State) (v : Byte) : (s.setSP v).pc = s.pc := rfl
@[simp] theorem setSP_ir (s : State) (v : Byte) : (s.setSP v).ir = s.ir := rfl
@[simp] theorem setSP_mem (s : State) (v : Byte) : (s.setSP v).mem = s.mem := rfl
@[simp] theorem setSP_cfg (s : State) (v : Byte) : (s.setSP v).cfg = s.cfg := rfl
@[simp] theorem setSP_diagnostics (s : State) (v : Byte) : (s.setSP v).diagnostics = s.diagnostics := rfl
@[simp] theorem setSP_result (s : State) (v : Byte) : (s.setSP v).result = s.result := rfl

@[simp] theorem setPC_a (s : State) (v : Addr) : (s.setPC v).a = s.a := rfl
@[simp] theorem setPC_x (s : State) (v : Addr) : (s.setPC v).x = s.x := rfl
@[simp] theorem setPC_y (s : State) (v : Addr) : (s.setPC v).y = s.y := rfl
@[simp] theorem setPC_p (s : State) (v : Addr) : (s.setPC v).p = s.p := rfl
@[simp] theorem setPC_sp (s : State) (v : Addr) : (s.setPC v).sp = s.sp := rfl
@[simp] theorem setPC_pc (s : State) (v : Addr) : (s.setPC v).pc = v := rfl
@[simp] theorem setPC_ir (s : State) (v : Addr) : (s.setPC v).ir = s.ir := rfl
@[simp] theorem setPC_mem (s : State) (v : Addr) : (s.setPC v).mem = s.mem := rfl
@[simp] theorem setPC_cfg (s : State) (v : Addr) : (s.setPC v).cfg = s.cfg := rfl
@[simp] theorem setPC_diagnostics (s : State) (v : Addr) : (s.setPC v).diagnostics = s.diagnostics := rfl
@[simp] theorem setPC_result (s : State) (v : Addr) : (s.setPC v).result = s.result := rfl

@[simp] theorem setIR_a (s : State) (v : Byte) : (s.setIR v).a = s.a := rfl
@[simp] theorem setIR_x (s : State) (v : Byte) : (s.setIR v).x = s.x := rfl
@[simp] theorem setIR_y (s : State) (v : Byte) : (s.setIR v).y = s.y := rfl
@[simp] theorem setIR_p (s : State) (v : Byte) : (s.setIR v).p = s.p := rfl
@[simp] theorem setIR_sp (s : State) (v : Byte) : (s.setIR v).sp = s.sp := rfl
@[simp] theorem setIR_pc (s : State) (v : Byte) : (s.setIR v).pc = s.pc := rfl
@[simp] theorem setIR_ir (s : State) (v : Byte) : (s.setIR v).ir = v := rfl
@[simp] theorem setIR_mem (s : State) (v : Byte) : (s.setIR v).mem = s.mem := rfl
@[simp] theorem setIR_cfg (s : State) (v : Byte) : (s.setIR v).cfg = s.cfg := rfl
@[simp] theorem setIR_diagnostics (s : State) (v : Byte) : (s.setIR v).diagnostics = s.diagnostics := rfl
@[simp] theorem setIR_result (s : State) (v : Byte) : (s.setIR v).result = s.result := rfl

@[simp] theorem setMem_a (s : State) (m : Memory) : (s.setMem m).a = s.a := rfl
@[simp] theorem setMem_x (s : State) (m : Memory) : (s.setMem m).x = s.x := rfl
@[simp] theorem setMem_y (s : State) (m : Memory) : (s.setMem m).y = s.y := rfl
@[simp] theorem setMem_p (s : State) (m : Memory) : (s.setMem m).p = s.p := rfl
@[simp] theorem setMem_sp (s : State) (m : Memory) : (s.setMem m).sp = s.sp := rfl
@[simp] theorem setMem_pc (s : State) (m : Memory) : (s.setMem m).pc = s.pc := rfl
@[simp] theorem setMem_ir (s : State) (m : Memory) : (s.setMem m).ir = s.ir := rfl
@[simp] theorem setMem_mem (s : State) (m : Memory) : (s.setMem m).mem = m := rfl
@[simp] theorem setMem_cfg (s : State) (m : Memory) : (s.setMem m).cfg = s.cfg := rfl
@[simp] theorem setMem_diagnostics (s : State) (m : Memory) : (s.setMem m).diagnostics = s.diagnostics := rfl
@[simp] theorem setMem_result (s : State) (m : Memory) : (s.setMem m).result = s.result := rfl

@[simp] theorem setDiagnostics_a (s : State) (d : List Diagnostic) : (s.setDiagnostics d).a = s.a := rfl
@[simp] theorem setDiagnostics_x (s : State) (d : List Diagnostic) : (s.setDiagnostics d).x = s.x := rfl
@[simp] theorem setDiagnostics_y (s : State) (d : List Diagnostic) : (s.setDiagnostics d).y = s.y := rfl
@[simp] theorem setDiagnostics_p (s : State) (d : List Diagnostic) : (s.setDiagnostics d).p = s.p := rfl
@[simp] theorem setDiagnostics_sp (s : State) (d : List Diagnostic) : (s.setDiagnostics d).sp = s.sp := rfl
@[simp] theorem setDiagnostics_pc (s : State) (d : List Diagnostic) : (s.setDiagnostics d).pc = s.pc := rfl
@[simp] theorem setDiagnostics_ir (s : State) (d : List Diagnostic) : (s.setDiagnostics d).ir = s.ir := rfl
@[simp] theorem setDiagnostics_mem (s : State) (d : List Diagnostic) : (s.setDiagnostics d).mem = s.mem := rfl
@[simp] theorem setDiagnostics_cfg (s : State) (d : List Diagnostic) : (s.setDiagnostics d).cfg = s.cfg := rfl
@[simp] theorem setDiagnostics_diagnostics (s : State) (d : List Diagnostic) : (s.setDiagnostics d).diagnostics = d := rfl
@[simp] theorem setDiagnostics_result (s : State) (d : List Diagnostic) : (s.setDiagnostics d).result = s.result := rfl

@[simp] theorem setResult_a (s : State) (r : StepResult) : (s.setResult r).a = s.a := rfl
@[simp] theorem setResult_x (s : State) (r : StepResult) : (s.setResult r).x = s.x := rfl
@[simp] theorem setResult_y (s : State) (r : StepResult) : (s.setResult r).y = s.y := rfl
@[simp] theorem setResult_p (s : State) (r : StepResult) : (s.setResult r).p = s.p := rfl
@[simp] theorem setResult_sp (s : State) (r : StepResult) : (s.setResult r).sp = s.sp := rfl
@[simp] theorem setResult_pc (s : State) (r : StepResult) : (s.setResult r).pc = s.pc := rfl
@[simp] theorem setResult_ir (s : State) (r : StepResult) : (s.setResult r).ir = s.ir := rfl
@[simp] theorem setResult_mem (s : State) (r : StepResult) : (s.setResult r).mem = s.mem := rfl
@[simp] theorem setResult_cfg (s : State) (r : StepResult) : (s.setResult r).cfg = s.cfg := rfl
@[simp] theorem setResult_diagnostics (s : State) (r : StepResult) : (s.setResult r).diagnostics = s.diagnostics := rfl
@[simp] theorem setResult_result (s : State) (r : StepResult) : (s.setResult r).result = r := rfl

@[simp] theorem advance_a (s : State) (n : Nat) : (s.advance n).a = s.a := rfl
@[simp] theorem advance_x (s : State) (n : Nat) : (s.advance n).x = s.x := rfl
@[simp] theorem advance_y (s : State) (n : Nat) : (s.advance n).y = s.y := rfl
@[simp] theorem advance_p (s : State) (n : Nat) : (s.advance n).p = s.p := rfl
@[simp] theorem advance_sp (s : State) (n : Nat) : (s.advance n).sp = s.sp := rfl
@[simp] theorem advance_pc (s : State) (n : Nat) : (s.advance n).pc = s.pc + BitVec.ofNat 16 n := rfl
@[simp] theorem advance_ir (s : State) (n : Nat) : (s.advance n).ir = s.ir := rfl
@[simp] theorem advance_mem (s : State) (n : Nat) : (s.advance n).mem = s.mem := rfl
@[simp] theorem advance_cfg (s : State) (n : Nat) : (s.advance n).cfg = s.cfg := rfl
@[simp] theorem advance_diagnostics (s : State) (n : Nat) : (s.advance n).diagnostics = s.diagnostics := rfl
@[simp] theorem advance_result (s : State) (n : Nat) : (s.advance n).result = s.result := rfl

@[simp] theorem setStatus_a (s : State) (v : Byte) : (s.setStatus v).a = s.a := rfl
@[simp] theorem setStatus_x (s : State) (v : Byte) : (s.setStatus v).x = s.x := rfl
@[simp] theorem setStatus_y (s : State) (v : Byte) : (s.setStatus v).y = s.y := rfl
@[simp] theorem setStatus_p (s : State) (v : Byte) : (s.setStatus v).p = v ||| 0x30#8 := rfl
@[simp] theorem setStatus_sp (s : State) (v : Byte) : (s.setStatus v).sp = s.sp := rfl
@[simp] theorem setStatus_pc (s : State) (v : Byte) : (s.setStatus v).pc = s.pc := rfl
@[simp] theorem setStatus_ir (s : State) (v : Byte) : (s.setStatus v).ir = s.ir := rfl
@[simp] theorem setStatus_mem (s : State) (v : Byte) : (s.setStatus v).mem = s.mem := rfl
@[simp] theorem setStatus_cfg (s : State) (v : Byte) : (s.setStatus v).cfg = s.cfg := rfl
@[simp] theorem setStatus_diagnostics (s : State) (v : Byte) : (s.setStatus v).diagnostics = s.diagnostics := rfl
@[simp] theorem setStatus_result (s : State) (v : Byte) : (s.setStatus v).result = s.result := rfl

@[simp] theorem store_a (s : State) (a : Addr) (v : Byte) : (s.store a v).a = s.a := rfl
@[simp] theorem store_x (s : State) (a : Addr) (v : Byte) : (s.store a v).x = s.x := rfl
@[simp] theorem store_y (s : State) (a : Addr) (v : Byte) : (s.store a v).y = s.y := rfl
@[simp] theorem store_p (s : State) (a : Addr) (v : Byte) : (s.store a v).p = s.p := rfl
@[simp] theorem store_sp (s : State) (a : Addr) (v : Byte) : (s.store a v).sp = s.sp := rfl
@[simp] theorem store_pc (s : State) (a : Addr) (v : Byte) : (s.store a v).pc = s.pc := rfl
@[simp] theorem store_ir (s : State) (a : Addr) (v : Byte) : (s.store a v).ir = s.ir := rfl
@[simp] theorem store_mem (s : State) (a : Addr) (v : Byte) : (s.store a v).mem = s.mem.write a.toNat v := rfl
@[simp] theorem store_cfg (s : State) (a : Addr) (v : Byte) : (s.store a v).cfg = s.cfg := rfl
@[simp] theorem store_diagnostics (s : State) (a : Addr) (v : Byte) : (s.store a v).diagnostics = s.diagnostics := rfl
@[simp] theorem store_result (s : State) (a : Addr) (v : Byte) : (s.store a v).result = s.result := rfl

@[simp] theorem signal_a (s : State) (d : Diagnostic) : (s.signal d).a = s.a := rfl
@[simp] theorem signal_x (s : State) (d : Diagnostic) : (s.signal d).x = s.x := rfl
@[simp] theorem signal_y (s : State) (d : Diagnostic) : (s.signal d).y = s.y := rfl
@[simp] theorem signal_p (s : State) (d : Diagnostic) : (s.signal d).p = s.p := rfl
@[simp] theorem signal_sp (s : State) (d : Diagnostic) : (s.signal d).sp = s.sp := rfl
@[simp] theorem signal_pc (s : State) (d : Diagnostic) : (s.signal d).pc = s.pc := rfl
@[simp] theorem signal_ir (s : State) (d : Diagnostic) : (s.signal d).ir = s.ir := rfl
@[simp] theorem signal_mem (s : State) (d : Diagnostic) : (s.signal d).mem = s.mem := rfl
@[simp] theorem signal_cfg (s : State) (d : Diagnostic) : (s.signal d).cfg = s.cfg := rfl
@[simp] theorem signal_diagnostics (s : State) (d : Diagnostic) : (s.signal d).diagnostics = s.diagnostics ++ [d] := rfl
@[simp] theorem signal_result (s : State) (d : Diagnostic) : (s.signal d).result = s.result := rfl

end Sys2Proof.Machine.State
end

