-- ==== Sys2Proof/Laws/Flags.lean ====
section
/-! SUPPORT. What a flag write does to P and to every other field, and what `setNZ` leaves. -/

namespace Sys2Proof.Machine

theorem Flag.index_lt (f : Flag) : f.index < 8 := by cases f <;> decide

theorem Flag.index_inj {f g : Flag} (h : f.index = g.index) : f = g := by
  cases f <;> cases g <;> first | rfl | exact absurd h (by decide)

/-- No flag write reaches the hardwired bits. -/
theorem Flag.index_ne_hardwired (f : Flag) : f.index ≠ 4 ∧ f.index ≠ 5 := by
  cases f <;> decide

namespace State

theorem setFlag_bit (s : State) (f : Flag) (b : Bool) (k : Nat) :
    (s.setFlag f b).p.getLsbD k = if k = f.index then b else s.p.getLsbD k :=
  getLsbD_writeBit s.p f.index_lt b k

@[simp] theorem flag_setFlag_same (s : State) (f : Flag) (b : Bool) :
    (s.setFlag f b).flag f = b := by
  rw [flag, setFlag_bit, if_pos rfl]

theorem flag_setFlag_other (s : State) {f g : Flag} (h : g ≠ f) (b : Bool) :
    (s.setFlag f b).flag g = s.flag g := by
  rw [flag, setFlag_bit, if_neg (fun e => h (Flag.index_inj e)), flag]

@[simp] theorem setFlag_a (s : State) (f : Flag) (b : Bool) : (s.setFlag f b).a = s.a := rfl
@[simp] theorem setFlag_x (s : State) (f : Flag) (b : Bool) : (s.setFlag f b).x = s.x := rfl
@[simp] theorem setFlag_y (s : State) (f : Flag) (b : Bool) : (s.setFlag f b).y = s.y := rfl
@[simp] theorem setFlag_sp (s : State) (f : Flag) (b : Bool) : (s.setFlag f b).sp = s.sp := rfl
@[simp] theorem setFlag_pc (s : State) (f : Flag) (b : Bool) : (s.setFlag f b).pc = s.pc := rfl
@[simp] theorem setFlag_ir (s : State) (f : Flag) (b : Bool) : (s.setFlag f b).ir = s.ir := rfl
@[simp] theorem setFlag_mem (s : State) (f : Flag) (b : Bool) : (s.setFlag f b).mem = s.mem := rfl
@[simp] theorem setFlag_cfg (s : State) (f : Flag) (b : Bool) : (s.setFlag f b).cfg = s.cfg := rfl
@[simp] theorem setFlag_diagnostics (s : State) (f : Flag) (b : Bool) : (s.setFlag f b).diagnostics = s.diagnostics := rfl
@[simp] theorem setFlag_result (s : State) (f : Flag) (b : Bool) : (s.setFlag f b).result = s.result := rfl

@[simp] theorem setNZ_a (s : State) (v : Byte) : (s.setNZ v).a = s.a := rfl
@[simp] theorem setNZ_x (s : State) (v : Byte) : (s.setNZ v).x = s.x := rfl
@[simp] theorem setNZ_y (s : State) (v : Byte) : (s.setNZ v).y = s.y := rfl
@[simp] theorem setNZ_sp (s : State) (v : Byte) : (s.setNZ v).sp = s.sp := rfl
@[simp] theorem setNZ_pc (s : State) (v : Byte) : (s.setNZ v).pc = s.pc := rfl
@[simp] theorem setNZ_ir (s : State) (v : Byte) : (s.setNZ v).ir = s.ir := rfl
@[simp] theorem setNZ_mem (s : State) (v : Byte) : (s.setNZ v).mem = s.mem := rfl
@[simp] theorem setNZ_cfg (s : State) (v : Byte) : (s.setNZ v).cfg = s.cfg := rfl
@[simp] theorem setNZ_diagnostics (s : State) (v : Byte) : (s.setNZ v).diagnostics = s.diagnostics := rfl
@[simp] theorem setNZ_result (s : State) (v : Byte) : (s.setNZ v).result = s.result := rfl

/-- `SetNZ` writes bits 7 and 1 of P and no other. -/
theorem setNZ_bit (s : State) (v : Byte) (k : Nat) :
    (s.setNZ v).p.getLsbD k =
      if k = 1 then v == 0x00#8 else if k = 7 then v.msb else s.p.getLsbD k := by
  rw [setNZ, setFlag_bit, setFlag_bit]
  rfl

@[simp] theorem flag_n_setNZ (s : State) (v : Byte) : (s.setNZ v).flag .n = v.msb := by
  rw [flag, setNZ_bit]
  rfl

@[simp] theorem flag_z_setNZ (s : State) (v : Byte) : (s.setNZ v).flag .z = (v == 0x00#8) := by
  rw [flag, setNZ_bit]
  rfl

end State

end Sys2Proof.Machine
end

