-- ==== Sys2Proof/Laws/Memory.lean ====
section
/-! SUPPORT. What `Memory.read` and `Memory.write` do: a read after a write to the same address gives
the byte written, every other address is left alone, the canonical form is kept, and canonical
memories with equal bytes are equal. -/

namespace Sys2Proof.Machine.Memory

theorem read_consCell (b : Nat) (v : Byte) (rest : Memory) (a : Nat) (h : rest.read b = 0x00#8) :
    (consCell b v rest).read a = if a = b then v else rest.read a := by
  unfold consCell
  split
  · split
    · subst_vars; exact h
    · rfl
  · rfl

theorem wfFrom_mono {lo lo' : Nat} {m : Memory} (h : wfFrom lo m = true) (hle : lo' ≤ lo) :
    wfFrom lo' m = true := by
  cases m with
  | nil => rfl
  | cons c rest =>
    simp only [wfFrom, Bool.and_eq_true, decide_eq_true_eq] at h ⊢
    exact ⟨⟨⟨Nat.le_trans hle h.1.1.1, h.1.1.2⟩, h.1.2⟩, h.2⟩

/-- Below the first listed address every byte is unlisted. -/
theorem read_of_lt {lo a : Nat} {m : Memory} (h : wfFrom lo m = true) (hlt : a < lo) :
    m.read a = 0x00#8 := by
  induction m generalizing lo with
  | nil => rfl
  | cons c rest ih =>
    simp only [wfFrom, Bool.and_eq_true, decide_eq_true_eq] at h
    have hne : a ≠ c.1 := by omega
    simp only [read, hne, if_false]
    exact ih h.2 (by omega)

theorem read_write {m : Memory} {lo : Nat} (h : wfFrom lo m = true) (b : Nat) (v : Byte) (a : Nat) :
    (m.write b v).read a = if a = b then v else m.read a := by
  induction m generalizing lo with
  | nil => exact read_consCell b v [] a rfl
  | cons c rest ih =>
    have hc := h
    simp only [wfFrom, Bool.and_eq_true, decide_eq_true_eq] at h
    simp only [write]
    split
    · next hlt => exact read_consCell b v _ a (read_of_lt (wfFrom_mono (lo' := c.1) (by
        simp only [wfFrom, Bool.and_eq_true, decide_eq_true_eq]
        exact ⟨⟨⟨Nat.le_refl _, h.1.1.2⟩, h.1.2⟩, h.2⟩) (Nat.le_refl _)) hlt)
    · split
      · next heq =>
        rw [read_consCell b v rest a (read_of_lt h.2 (by omega))]
        simp only [read, heq]
        split <;> simp_all
      · simp only [read, ih h.2]
        split
        · next h1 => rw [if_neg (by omega)]
        · rfl

/-- A write leaves every other address alone, in any list of cells. -/
theorem read_write_other (m : Memory) {a b : Nat} (h : a ≠ b) (v : Byte) :
    (m.write b v).read a = m.read a := by
  have hcons : ∀ rest : Memory, (consCell b v rest).read a = rest.read a := by
    intro rest
    unfold consCell
    split
    · rfl
    · simp only [read, if_neg h]
  induction m with
  | nil => exact hcons []
  | cons c rest ih =>
    simp only [write]
    split
    · exact hcons _
    · split
      · next heq => rw [hcons rest]; simp only [read]; rw [if_neg (by omega)]
      · simp only [read, ih]

/-- A read gives back the byte just written. -/
theorem read_write_same {m : Memory} (h : m.wf = true) (a : Nat) (v : Byte) :
    (m.write a v).read a = v := by
  rw [read_write h, if_pos rfl]

/-- A write keeps the canonical form. -/
theorem wfFrom_write {m : Memory} {lo : Nat} (h : wfFrom lo m = true) {b : Nat} (hlo : lo ≤ b)
    (hb : b < 65536) (v : Byte) : wfFrom lo (m.write b v) = true := by
  have cons_wf : ∀ (rest : Memory), wfFrom (b + 1) rest = true →
      wfFrom lo (consCell b v rest) = true := by
    intro rest hr
    unfold consCell
    split
    · exact wfFrom_mono hr (by omega)
    · next hv =>
      simp only [wfFrom, Bool.and_eq_true, decide_eq_true_eq]
      exact ⟨⟨⟨hlo, hb⟩, hv⟩, hr⟩
  induction m generalizing lo with
  | nil => exact cons_wf [] rfl
  | cons c rest ih =>
    simp only [wfFrom, Bool.and_eq_true, decide_eq_true_eq] at h
    simp only [write]
    split
    · next hlt =>
      apply cons_wf
      simp only [wfFrom, Bool.and_eq_true, decide_eq_true_eq]
      exact ⟨⟨⟨hlt, h.1.1.2⟩, h.1.2⟩, h.2⟩
    · split
      · next heq => exact cons_wf rest (by rw [heq]; exact h.2)
      · simp only [wfFrom, Bool.and_eq_true, decide_eq_true_eq]
        refine ⟨h.1, ih h.2 (by omega) ?_⟩
        intro rest hr
        unfold consCell
        split
        · exact wfFrom_mono hr (by omega)
        · next hv =>
          simp only [wfFrom, Bool.and_eq_true, decide_eq_true_eq]
          exact ⟨⟨⟨by omega, hb⟩, hv⟩, hr⟩

theorem wf_write {m : Memory} (h : m.wf = true) {b : Nat} (hb : b < 65536) (v : Byte) :
    (m.write b v).wf = true :=
  wfFrom_write h (Nat.zero_le b) hb v

end Sys2Proof.Machine.Memory
end

