-- ==== Sys2Proof/Laws/Ops.lean ====
section
/-! SUPPORT. Loads and stores through the state, and once and for all what `push` and `pull` do. -/

namespace Sys2Proof.Machine

namespace State

/-- A load sees memory only. -/
theorem load_congr {s t : State} (h : t.mem = s.mem) (a : Addr) : t.load a = s.load a := by
  rw [load, load, h]

@[simp] theorem load_advance (s : State) (n : Nat) (a : Addr) : (s.advance n).load a = s.load a := rfl

theorem load_store_same {s : State} (h : s.mem.wf = true) (a : Addr) (v : Byte) :
    (s.store a v).load a = v :=
  Memory.read_write_same h a.toNat v

theorem load_store_other (s : State) {a b : Addr} (h : a ≠ b) (v : Byte) :
    (s.store b v).load a = s.load a :=
  Memory.read_write_other s.mem (fun e => h (BitVec.eq_of_toNat_eq e)) v

theorem wf_store {s : State} (h : s.mem.wf = true) (a : Addr) (v : Byte) :
    (s.store a v).mem.wf = true :=
  Memory.wf_write h a.isLt v

end State

/-- Different offsets are different addresses of the window. -/
theorem stackAddr_inj {cfg : Cfg} {i j : Byte} (h : stackAddr cfg i = stackAddr cfg j) : i = j := by
  have h := congrArg lo8 h
  simpa [stackAddr] using h

/-- Everything a push does: one byte at the offset SP held, SP one lower, and the signal exactly
when SP was 0x00. -/
theorem push_eq (v : Byte) (s : State) :
    push v s = { s with
      mem := s.mem.write (stackAddr s.cfg s.sp).toNat v
      sp := s.sp - 1
      diagnostics := s.diagnostics ++ if s.sp = 0x00#8 then [.stackOverflow] else [] } := by
  unfold push
  by_cases h : s.sp = 0x00#8
  · simp [h, State.store, State.signal, State.setSP, State.setMem, State.setDiagnostics]
  · simp [h, State.store, State.setSP, State.setMem]

/-- Everything a pull does: the byte at the offset one above SP, SP one higher, and the signal
exactly when SP was 0xFF. -/
theorem pull_eq (s : State) :
    pull s = (s.load (stackAddr s.cfg (s.sp + 1)), { s with
      sp := s.sp + 1
      diagnostics := s.diagnostics ++ if s.sp = 0xFF#8 then [.stackUnderflow] else [] }) := by
  unfold pull
  by_cases h : s.sp = 0xFF#8
  · simp [h, State.load, State.signal, State.setSP, State.setDiagnostics]
  · simp [h, State.load, State.setSP]

/-- A push keeps the canonical form of memory. -/
theorem wf_push {s : State} (h : s.mem.wf = true) (v : Byte) : (push v s).mem.wf = true := by
  rw [push_eq]
  exact Memory.wf_write h (BitVec.isLt _) v

/-- A pull leaves memory as it was. -/
theorem pull_mem (s : State) : (pull s).2.mem = s.mem := by
  rw [pull_eq]

end Sys2Proof.Machine
end

