-- ==== Sys2Proof/Laws/Frame.lean ====
section
/-! SUPPORT. What each named operation leaves unchanged, and how frames compose: the frame of a meaning
is the composition of the frames of the operations it is made of. -/

namespace Sys2Proof.Machine

namespace Frame

/-- A frame that names less implies one that names more. -/
theorem mono {r r' : List Reg} {f f' : List Flag} {m m' : List Addr} {s t : State}
    (h : Frame r f m s t) (hr : r ⊆ r' := by simp) (hf : f ⊆ f' := by simp)
    (hm : m ⊆ m' := by simp) : Frame r' f' m' s t where
  regs q hq := h.regs q fun hin => hq (hr hin)
  bits k hk := h.bits k fun g hg => hk g (hf hg)
  bytes a ha := h.bytes a fun hin => ha (hm hin)
  cfg := h.cfg

theorem trans {r r' : List Reg} {f f' : List Flag} {m m' : List Addr} {s t u : State}
    (h : Frame r f m s t) (h' : Frame r' f' m' t u) :
    Frame (r ++ r') (f ++ f') (m ++ m') s u where
  regs q hq := by
    rw [List.mem_append, not_or] at hq
    rw [h'.regs q hq.2, h.regs q hq.1]
  bits k hk := by
    rw [h'.bits k fun g hg => hk g (List.mem_append_right _ hg),
      h.bits k fun g hg => hk g (List.mem_append_left _ hg)]
  bytes a ha := by
    rw [List.mem_append, not_or] at ha
    rw [h'.bytes a ha.2, h.bytes a ha.1]
  cfg := h'.cfg.trans h.cfg

theorem advance (s : State) (n : Nat) : Frame [] [] [] s (s.advance n) where
  regs q _ := by cases q <;> rfl
  bits _ _ := rfl
  bytes _ _ := rfl
  cfg := rfl

theorem setPC (s : State) (v : Addr) : Frame [] [] [] s (s.setPC v) where
  regs q _ := by cases q <;> rfl
  bits _ _ := rfl
  bytes _ _ := rfl
  cfg := rfl

theorem setA (s : State) (v : Byte) : Frame [.a] [] [] s (s.setA v) where
  regs q hq := by cases q <;> simp_all [State.reg]
  bits _ _ := rfl
  bytes _ _ := rfl
  cfg := rfl

theorem setX (s : State) (v : Byte) : Frame [.x] [] [] s (s.setX v) where
  regs q hq := by cases q <;> simp_all [State.reg]
  bits _ _ := rfl
  bytes _ _ := rfl
  cfg := rfl

theorem setY (s : State) (v : Byte) : Frame [.y] [] [] s (s.setY v) where
  regs q hq := by cases q <;> simp_all [State.reg]
  bits _ _ := rfl
  bytes _ _ := rfl
  cfg := rfl

theorem setSP (s : State) (v : Byte) : Frame [.sp] [] [] s (s.setSP v) where
  regs q hq := by cases q <;> simp_all [State.reg]
  bits _ _ := rfl
  bytes _ _ := rfl
  cfg := rfl

theorem setFlag (s : State) (f : Flag) (b : Bool) : Frame [] [f] [] s (s.setFlag f b) where
  regs q _ := by cases q <;> rfl
  bits k hk := by
    rw [State.setFlag_bit, if_neg]
    exact fun e => hk f (List.mem_singleton.2 rfl) e.symm
  bytes _ _ := rfl
  cfg := rfl

theorem setNZ (s : State) (v : Byte) : Frame [] [.n, .z] [] s (s.setNZ v) :=
  (setFlag s .n v.msb).trans (setFlag _ .z _)

/-- Writing the whole of P leaves bits 5 and 4 as they are only where they are 1 (R16). -/
theorem setStatus {s : State} (h : s.p &&& 0x30#8 = 0x30#8) (v : Byte) :
    Frame [] [.n, .v, .d, .i, .z, .c] [] s (s.setStatus v) where
  regs q _ := by cases q <;> rfl
  bits k hk := by
    simp only [List.mem_cons, List.not_mem_nil, or_false, forall_eq_or_imp, forall_eq,
      Flag.index] at hk
    have hcases : k = 4 ∨ k = 5 ∨ 8 ≤ k := by omega
    have hbit := congrArg (fun z => z.getLsbD k) h
    rw [State.setStatus, State.setP_p]
    rcases hcases with rfl | rfl | hk8
    · simp at hbit; simp [hbit]
    · simp at hbit; simp [hbit]
    · rw [BitVec.getLsbD_of_ge _ _ hk8, BitVec.getLsbD_of_ge _ _ hk8]
  bytes _ _ := rfl
  cfg := rfl

theorem store (s : State) (a : Addr) (v : Byte) : Frame [] [] [a] s (s.store a v) where
  regs q _ := by cases q <;> rfl
  bits _ _ := rfl
  bytes _ hb := State.load_store_other s (by simpa using hb) v
  cfg := rfl

theorem push (s : State) (v : Byte) :
    Frame [.sp] [] [stackAddr s.cfg s.sp] s (Machine.push v s) := by
  rw [push_eq]
  exact {
    regs := fun q hq => by cases q <;> simp_all [State.reg]
    bits := fun _ _ => rfl
    bytes := fun _ hb => State.load_store_other s (by simpa using hb) v
    cfg := rfl }

theorem pull (s : State) : Frame [.sp] [] [] s (Machine.pull s).2 := by
  rw [pull_eq]
  exact {
    regs := fun q hq => by cases q <;> simp_all [State.reg]
    bits := fun _ _ => rfl
    bytes := fun _ _ => rfl
    cfg := rfl }

end Frame

/-- `SetNZ` sets N and Z by its argument. -/
theorem setsNZ_setNZ (s : State) (v : Byte) : SetsNZ v (s.setNZ v) where
  n := State.flag_n_setNZ s v
  z := by
    rw [State.flag_z_setNZ, beq_iff_eq]
    exact ⟨fun h => by rw [h]; rfl, fun h => BitVec.eq_of_toNat_eq h⟩

end Sys2Proof.Machine
end

