-- ==== Sys2Proof/Laws/PerInstr.lean ====
section
/-! SUPPORT. Statements made once per constructor of `Instr`. Family TableRow: the constructor is a
row of spec/30_encoding.md R54. -/

namespace Sys2Proof.Laws.TableRow

/-- The pair of mnemonic and mode is in R54's table, the opcode byte has an entry in the map, and the
bytes are as many as the mode says (R51, R56). -/
def Statement (i : Instr) : Prop :=
  WellFormed i = true ∧ (decodeOpcode (opcodeOf i)).isSome = true ∧ (encode i).length = i.length

theorem ldaImm (v : Byte) : Statement (.ldaImm v) := ⟨rfl, opcodeMap_isSome _, rfl⟩
theorem ldaZp (b : Byte) : Statement (.ldaZp b) := ⟨rfl, opcodeMap_isSome _, rfl⟩
theorem ldaZpx (b : Byte) : Statement (.ldaZpx b) := ⟨rfl, opcodeMap_isSome _, rfl⟩
theorem ldaAbs (w : Addr) : Statement (.ldaAbs w) := ⟨rfl, opcodeMap_isSome _, rfl⟩
theorem ldaAbsx (w : Addr) : Statement (.ldaAbsx w) := ⟨rfl, opcodeMap_isSome _, rfl⟩
theorem ldaAbsy (w : Addr) : Statement (.ldaAbsy w) := ⟨rfl, opcodeMap_isSome _, rfl⟩
theorem ldaIndx (b : Byte) : Statement (.ldaIndx b) := ⟨rfl, opcodeMap_isSome _, rfl⟩
theorem ldaIndy (b : Byte) : Statement (.ldaIndy b) := ⟨rfl, opcodeMap_isSome _, rfl⟩
theorem ldxImm (v : Byte) : Statement (.ldxImm v) := ⟨rfl, opcodeMap_isSome _, rfl⟩
theorem ldxZp (b : Byte) : Statement (.ldxZp b) := ⟨rfl, opcodeMap_isSome _, rfl⟩
theorem ldxZpy (b : Byte) : Statement (.ldxZpy b) := ⟨rfl, opcodeMap_isSome _, rfl⟩
theorem ldxAbs (w : Addr) : Statement (.ldxAbs w) := ⟨rfl, opcodeMap_isSome _, rfl⟩
theorem ldxAbsy (w : Addr) : Statement (.ldxAbsy w) := ⟨rfl, opcodeMap_isSome _, rfl⟩
theorem ldyImm (v : Byte) : Statement (.ldyImm v) := ⟨rfl, opcodeMap_isSome _, rfl⟩
theorem ldyZp (b : Byte) : Statement (.ldyZp b) := ⟨rfl, opcodeMap_isSome _, rfl⟩
theorem ldyZpx (b : Byte) : Statement (.ldyZpx b) := ⟨rfl, opcodeMap_isSome _, rfl⟩
theorem ldyAbs (w : Addr) : Statement (.ldyAbs w) := ⟨rfl, opcodeMap_isSome _, rfl⟩
theorem ldyAbsx (w : Addr) : Statement (.ldyAbsx w) := ⟨rfl, opcodeMap_isSome _, rfl⟩
theorem staZp (b : Byte) : Statement (.staZp b) := ⟨rfl, opcodeMap_isSome _, rfl⟩
theorem staZpx (b : Byte) : Statement (.staZpx b) := ⟨rfl, opcodeMap_isSome _, rfl⟩
theorem staAbs (w : Addr) : Statement (.staAbs w) := ⟨rfl, opcodeMap_isSome _, rfl⟩
theorem staAbsx (w : Addr) : Statement (.staAbsx w) := ⟨rfl, opcodeMap_isSome _, rfl⟩
theorem staAbsy (w : Addr) : Statement (.staAbsy w) := ⟨rfl, opcodeMap_isSome _, rfl⟩
theorem staIndx (b : Byte) : Statement (.staIndx b) := ⟨rfl, opcodeMap_isSome _, rfl⟩
theorem staIndy (b : Byte) : Statement (.staIndy b) := ⟨rfl, opcodeMap_isSome _, rfl⟩
theorem stxZp (b : Byte) : Statement (.stxZp b) := ⟨rfl, opcodeMap_isSome _, rfl⟩
theorem stxZpy (b : Byte) : Statement (.stxZpy b) := ⟨rfl, opcodeMap_isSome _, rfl⟩
theorem stxAbs (w : Addr) : Statement (.stxAbs w) := ⟨rfl, opcodeMap_isSome _, rfl⟩
theorem styZp (b : Byte) : Statement (.styZp b) := ⟨rfl, opcodeMap_isSome _, rfl⟩
theorem styZpx (b : Byte) : Statement (.styZpx b) := ⟨rfl, opcodeMap_isSome _, rfl⟩
theorem styAbs (w : Addr) : Statement (.styAbs w) := ⟨rfl, opcodeMap_isSome _, rfl⟩
theorem tax : Statement .tax := ⟨rfl, opcodeMap_isSome _, rfl⟩
theorem tay : Statement .tay := ⟨rfl, opcodeMap_isSome _, rfl⟩
theorem txa : Statement .txa := ⟨rfl, opcodeMap_isSome _, rfl⟩
theorem tya : Statement .tya := ⟨rfl, opcodeMap_isSome _, rfl⟩
theorem tsx : Statement .tsx := ⟨rfl, opcodeMap_isSome _, rfl⟩
theorem txs : Statement .txs := ⟨rfl, opcodeMap_isSome _, rfl⟩
theorem adcImm (v : Byte) : Statement (.adcImm v) := ⟨rfl, opcodeMap_isSome _, rfl⟩
theorem adcZp (b : Byte) : Statement (.adcZp b) := ⟨rfl, opcodeMap_isSome _, rfl⟩
theorem adcZpx (b : Byte) : Statement (.adcZpx b) := ⟨rfl, opcodeMap_isSome _, rfl⟩
theorem adcAbs (w : Addr) : Statement (.adcAbs w) := ⟨rfl, opcodeMap_isSome _, rfl⟩
theorem adcAbsx (w : Addr) : Statement (.adcAbsx w) := ⟨rfl, opcodeMap_isSome _, rfl⟩
theorem adcAbsy (w : Addr) : Statement (.adcAbsy w) := ⟨rfl, opcodeMap_isSome _, rfl⟩
theorem adcIndx (b : Byte) : Statement (.adcIndx b) := ⟨rfl, opcodeMap_isSome _, rfl⟩
theorem adcIndy (b : Byte) : Statement (.adcIndy b) := ⟨rfl, opcodeMap_isSome _, rfl⟩
theorem sbcImm (v : Byte) : Statement (.sbcImm v) := ⟨rfl, opcodeMap_isSome _, rfl⟩
theorem sbcZp (b : Byte) : Statement (.sbcZp b) := ⟨rfl, opcodeMap_isSome _, rfl⟩
theorem sbcZpx (b : Byte) : Statement (.sbcZpx b) := ⟨rfl, opcodeMap_isSome _, rfl⟩
theorem sbcAbs (w : Addr) : Statement (.sbcAbs w) := ⟨rfl, opcodeMap_isSome _, rfl⟩
theorem sbcAbsx (w : Addr) : Statement (.sbcAbsx w) := ⟨rfl, opcodeMap_isSome _, rfl⟩
theorem sbcAbsy (w : Addr) : Statement (.sbcAbsy w) := ⟨rfl, opcodeMap_isSome _, rfl⟩
theorem sbcIndx (b : Byte) : Statement (.sbcIndx b) := ⟨rfl, opcodeMap_isSome _, rfl⟩
theorem sbcIndy (b : Byte) : Statement (.sbcIndy b) := ⟨rfl, opcodeMap_isSome _, rfl⟩
theorem cmpImm (v : Byte) : Statement (.cmpImm v) := ⟨rfl, opcodeMap_isSome _, rfl⟩
theorem cmpZp (b : Byte) : Statement (.cmpZp b) := ⟨rfl, opcodeMap_isSome _, rfl⟩
theorem cmpZpx (b : Byte) : Statement (.cmpZpx b) := ⟨rfl, opcodeMap_isSome _, rfl⟩
theorem cmpAbs (w : Addr) : Statement (.cmpAbs w) := ⟨rfl, opcodeMap_isSome _, rfl⟩
theorem cmpAbsx (w : Addr) : Statement (.cmpAbsx w) := ⟨rfl, opcodeMap_isSome _, rfl⟩
theorem cmpAbsy (w : Addr) : Statement (.cmpAbsy w) := ⟨rfl, opcodeMap_isSome _, rfl⟩
theorem cmpIndx (b : Byte) : Statement (.cmpIndx b) := ⟨rfl, opcodeMap_isSome _, rfl⟩
theorem cmpIndy (b : Byte) : Statement (.cmpIndy b) := ⟨rfl, opcodeMap_isSome _, rfl⟩
theorem cpxImm (v : Byte) : Statement (.cpxImm v) := ⟨rfl, opcodeMap_isSome _, rfl⟩
theorem cpxZp (b : Byte) : Statement (.cpxZp b) := ⟨rfl, opcodeMap_isSome _, rfl⟩
theorem cpxAbs (w : Addr) : Statement (.cpxAbs w) := ⟨rfl, opcodeMap_isSome _, rfl⟩
theorem cpyImm (v : Byte) : Statement (.cpyImm v) := ⟨rfl, opcodeMap_isSome _, rfl⟩
theorem cpyZp (b : Byte) : Statement (.cpyZp b) := ⟨rfl, opcodeMap_isSome _, rfl⟩
theorem cpyAbs (w : Addr) : Statement (.cpyAbs w) := ⟨rfl, opcodeMap_isSome _, rfl⟩
theorem incZp (b : Byte) : Statement (.incZp b) := ⟨rfl, opcodeMap_isSome _, rfl⟩
theorem incZpx (b : Byte) : Statement (.incZpx b) := ⟨rfl, opcodeMap_isSome _, rfl⟩
theorem incAbs (w : Addr) : Statement (.incAbs w) := ⟨rfl, opcodeMap_isSome _, rfl⟩
theorem incAbsx (w : Addr) : Statement (.incAbsx w) := ⟨rfl, opcodeMap_isSome _, rfl⟩
theorem decZp (b : Byte) : Statement (.decZp b) := ⟨rfl, opcodeMap_isSome _, rfl⟩
theorem decZpx (b : Byte) : Statement (.decZpx b) := ⟨rfl, opcodeMap_isSome _, rfl⟩
theorem decAbs (w : Addr) : Statement (.decAbs w) := ⟨rfl, opcodeMap_isSome _, rfl⟩
theorem decAbsx (w : Addr) : Statement (.decAbsx w) := ⟨rfl, opcodeMap_isSome _, rfl⟩
theorem inx : Statement .inx := ⟨rfl, opcodeMap_isSome _, rfl⟩
theorem iny : Statement .iny := ⟨rfl, opcodeMap_isSome _, rfl⟩
theorem dex : Statement .dex := ⟨rfl, opcodeMap_isSome _, rfl⟩
theorem dey : Statement .dey := ⟨rfl, opcodeMap_isSome _, rfl⟩
theorem andImm (v : Byte) : Statement (.andImm v) := ⟨rfl, opcodeMap_isSome _, rfl⟩
theorem andZp (b : Byte) : Statement (.andZp b) := ⟨rfl, opcodeMap_isSome _, rfl⟩
theorem andZpx (b : Byte) : Statement (.andZpx b) := ⟨rfl, opcodeMap_isSome _, rfl⟩
theorem andAbs (w : Addr) : Statement (.andAbs w) := ⟨rfl, opcodeMap_isSome _, rfl⟩
theorem andAbsx (w : Addr) : Statement (.andAbsx w) := ⟨rfl, opcodeMap_isSome _, rfl⟩
theorem andAbsy (w : Addr) : Statement (.andAbsy w) := ⟨rfl, opcodeMap_isSome _, rfl⟩
theorem andIndx (b : Byte) : Statement (.andIndx b) := ⟨rfl, opcodeMap_isSome _, rfl⟩
theorem andIndy (b : Byte) : Statement (.andIndy b) := ⟨rfl, opcodeMap_isSome _, rfl⟩
theorem oraImm (v : Byte) : Statement (.oraImm v) := ⟨rfl, opcodeMap_isSome _, rfl⟩
theorem oraZp (b : Byte) : Statement (.oraZp b) := ⟨rfl, opcodeMap_isSome _, rfl⟩
theorem oraZpx (b : Byte) : Statement (.oraZpx b) := ⟨rfl, opcodeMap_isSome _, rfl⟩
theorem oraAbs (w : Addr) : Statement (.oraAbs w) := ⟨rfl, opcodeMap_isSome _, rfl⟩
theorem oraAbsx (w : Addr) : Statement (.oraAbsx w) := ⟨rfl, opcodeMap_isSome _, rfl⟩
theorem oraAbsy (w : Addr) : Statement (.oraAbsy w) := ⟨rfl, opcodeMap_isSome _, rfl⟩
theorem oraIndx (b : Byte) : Statement (.oraIndx b) := ⟨rfl, opcodeMap_isSome _, rfl⟩
theorem oraIndy (b : Byte) : Statement (.oraIndy b) := ⟨rfl, opcodeMap_isSome _, rfl⟩
theorem eorImm (v : Byte) : Statement (.eorImm v) := ⟨rfl, opcodeMap_isSome _, rfl⟩
theorem eorZp (b : Byte) : Statement (.eorZp b) := ⟨rfl, opcodeMap_isSome _, rfl⟩
theorem eorZpx (b : Byte) : Statement (.eorZpx b) := ⟨rfl, opcodeMap_isSome _, rfl⟩
theorem eorAbs (w : Addr) : Statement (.eorAbs w) := ⟨rfl, opcodeMap_isSome _, rfl⟩
theorem eorAbsx (w : Addr) : Statement (.eorAbsx w) := ⟨rfl, opcodeMap_isSome _, rfl⟩
theorem eorAbsy (w : Addr) : Statement (.eorAbsy w) := ⟨rfl, opcodeMap_isSome _, rfl⟩
theorem eorIndx (b : Byte) : Statement (.eorIndx b) := ⟨rfl, opcodeMap_isSome _, rfl⟩
theorem eorIndy (b : Byte) : Statement (.eorIndy b) := ⟨rfl, opcodeMap_isSome _, rfl⟩
theorem bitZp (b : Byte) : Statement (.bitZp b) := ⟨rfl, opcodeMap_isSome _, rfl⟩
theorem bitAbs (w : Addr) : Statement (.bitAbs w) := ⟨rfl, opcodeMap_isSome _, rfl⟩
theorem aslZp (b : Byte) : Statement (.aslZp b) := ⟨rfl, opcodeMap_isSome _, rfl⟩
theorem aslZpx (b : Byte) : Statement (.aslZpx b) := ⟨rfl, opcodeMap_isSome _, rfl⟩
theorem aslAbs (w : Addr) : Statement (.aslAbs w) := ⟨rfl, opcodeMap_isSome _, rfl⟩
theorem aslAbsx (w : Addr) : Statement (.aslAbsx w) := ⟨rfl, opcodeMap_isSome _, rfl⟩
theorem aslAcc : Statement .aslAcc := ⟨rfl, opcodeMap_isSome _, rfl⟩
theorem lsrZp (b : Byte) : Statement (.lsrZp b) := ⟨rfl, opcodeMap_isSome _, rfl⟩
theorem lsrZpx (b : Byte) : Statement (.lsrZpx b) := ⟨rfl, opcodeMap_isSome _, rfl⟩
theorem lsrAbs (w : Addr) : Statement (.lsrAbs w) := ⟨rfl, opcodeMap_isSome _, rfl⟩
theorem lsrAbsx (w : Addr) : Statement (.lsrAbsx w) := ⟨rfl, opcodeMap_isSome _, rfl⟩
theorem lsrAcc : Statement .lsrAcc := ⟨rfl, opcodeMap_isSome _, rfl⟩
theorem rolZp (b : Byte) : Statement (.rolZp b) := ⟨rfl, opcodeMap_isSome _, rfl⟩
theorem rolZpx (b : Byte) : Statement (.rolZpx b) := ⟨rfl, opcodeMap_isSome _, rfl⟩
theorem rolAbs (w : Addr) : Statement (.rolAbs w) := ⟨rfl, opcodeMap_isSome _, rfl⟩
theorem rolAbsx (w : Addr) : Statement (.rolAbsx w) := ⟨rfl, opcodeMap_isSome _, rfl⟩
theorem rolAcc : Statement .rolAcc := ⟨rfl, opcodeMap_isSome _, rfl⟩
theorem rorZp (b : Byte) : Statement (.rorZp b) := ⟨rfl, opcodeMap_isSome _, rfl⟩
theorem rorZpx (b : Byte) : Statement (.rorZpx b) := ⟨rfl, opcodeMap_isSome _, rfl⟩
theorem rorAbs (w : Addr) : Statement (.rorAbs w) := ⟨rfl, opcodeMap_isSome _, rfl⟩
theorem rorAbsx (w : Addr) : Statement (.rorAbsx w) := ⟨rfl, opcodeMap_isSome _, rfl⟩
theorem rorAcc : Statement .rorAcc := ⟨rfl, opcodeMap_isSome _, rfl⟩
theorem bcc (d : Byte) : Statement (.bcc d) := ⟨rfl, opcodeMap_isSome _, rfl⟩
theorem bcs (d : Byte) : Statement (.bcs d) := ⟨rfl, opcodeMap_isSome _, rfl⟩
theorem beq (d : Byte) : Statement (.beq d) := ⟨rfl, opcodeMap_isSome _, rfl⟩
theorem bmi (d : Byte) : Statement (.bmi d) := ⟨rfl, opcodeMap_isSome _, rfl⟩
theorem bne (d : Byte) : Statement (.bne d) := ⟨rfl, opcodeMap_isSome _, rfl⟩
theorem bpl (d : Byte) : Statement (.bpl d) := ⟨rfl, opcodeMap_isSome _, rfl⟩
theorem bvc (d : Byte) : Statement (.bvc d) := ⟨rfl, opcodeMap_isSome _, rfl⟩
theorem bvs (d : Byte) : Statement (.bvs d) := ⟨rfl, opcodeMap_isSome _, rfl⟩
theorem pha : Statement .pha := ⟨rfl, opcodeMap_isSome _, rfl⟩
theorem pla : Statement .pla := ⟨rfl, opcodeMap_isSome _, rfl⟩
theorem php : Statement .php := ⟨rfl, opcodeMap_isSome _, rfl⟩
theorem plp : Statement .plp := ⟨rfl, opcodeMap_isSome _, rfl⟩
theorem jmp (w : Addr) : Statement (.jmp w) := ⟨rfl, opcodeMap_isSome _, rfl⟩
theorem jsr (w : Addr) : Statement (.jsr w) := ⟨rfl, opcodeMap_isSome _, rfl⟩
theorem rts : Statement .rts := ⟨rfl, opcodeMap_isSome _, rfl⟩
theorem rti : Statement .rti := ⟨rfl, opcodeMap_isSome _, rfl⟩
theorem clc : Statement .clc := ⟨rfl, opcodeMap_isSome _, rfl⟩
theorem sec : Statement .sec := ⟨rfl, opcodeMap_isSome _, rfl⟩
theorem cli : Statement .cli := ⟨rfl, opcodeMap_isSome _, rfl⟩
theorem sei : Statement .sei := ⟨rfl, opcodeMap_isSome _, rfl⟩
theorem clv : Statement .clv := ⟨rfl, opcodeMap_isSome _, rfl⟩
theorem cld : Statement .cld := ⟨rfl, opcodeMap_isSome _, rfl⟩
theorem sed : Statement .sed := ⟨rfl, opcodeMap_isSome _, rfl⟩
theorem nop : Statement .nop := ⟨rfl, opcodeMap_isSome _, rfl⟩
theorem brk : Statement .brk := ⟨rfl, opcodeMap_isSome _, rfl⟩

end Sys2Proof.Laws.TableRow
end

