-- ==== Sys2Proof/Laws/Run.lean ====
section
/-! SUPPORT. The run loop, one step at a time: it goes on after a step whose result is `Ok` and stops
with the state of the first step whose result is not. -/

namespace Sys2Proof.Machine

/-- A run state is RUNNING exactly when the latest result is `Ok` (R236). -/
theorem State.runState_eq_running (s : State) : s.runState = .running ↔ s.result = .ok := by
  unfold State.runState
  cases s.result <;> simp

theorem runLoop_of_running {s : State} (h : (stepPort s).runState = .running) (fuel : Nat) :
    runLoop (fuel + 1) s = runLoop fuel (stepPort s) := by
  simp only [runLoop, h]

theorem runLoop_of_ended {s : State} (h : (stepPort s).runState ≠ .running) (fuel : Nat) :
    runLoop (fuel + 1) s = stepPort s := by
  cases hs : (stepPort s).runState with
  | running => exact absurd hs h
  | halted => simp only [runLoop, hs]
  | error => simp only [runLoop, hs]

/-- A run that has ended is not changed by more fuel. -/
theorem runLoop_stays_ended (n k : Nat) (s : State)
    (h : (runLoop (n + 1) s).runState ≠ .running) :
    runLoop (n + 1 + k) s = runLoop (n + 1) s := by
  by_cases hs : (stepPort s).runState = .running
  · cases n with
    | zero => exact absurd hs (by rwa [runLoop_of_running hs] at h)
    | succ n =>
      rw [runLoop_of_running hs] at h
      rw [show n + 1 + 1 + k = n + 1 + k + 1 by omega, runLoop_of_running hs,
        runLoop_of_running hs, runLoop_stays_ended n k _ h]
  · rw [show n + 1 + k = n + k + 1 by omega, runLoop_of_ended hs, runLoop_of_ended hs]

end Sys2Proof.Machine
end

