-- ==== Sys2Proof/Laws/Step.lean ====
section
/-! SUPPORT. Everything a step can be: the run of the decoded instruction, the extension's jump, or
the fault of an unknown opcode. -/

namespace Sys2Proof.Machine

/-- Decoding at PC fails exactly when the opcode byte has no entry: three bytes are always enough. -/
theorem decodeAtPC_cases (s : State) :
    (∃ i rest, decodeAtPC s = .ok (i, rest)) ∨
      (decodeOpcode (s.load s.pc) = none ∧
        decodeAtPC s = .error (.unknownOpcode (s.load s.pc))) := by
  cases h : decodeOpcode (s.load s.pc) with
  | none => exact .inr ⟨rfl, decode_of_none h _⟩
  | some f =>
    cases f with
    | f1 i => exact .inl ⟨_, _, decode_of_f1 h _⟩
    | f2 mk => exact .inl ⟨_, _, decode_of_f2 h _ _⟩
    | f3 mk => exact .inl ⟨_, _, decode_of_f3 h _ _ _⟩

theorem step_cases (s : State) :
    (∃ i rest, decodeAtPC s = .ok (i, rest) ∧ step s = exec i (fetch s)) ∨
    (decodeOpcode (s.load s.pc) = none ∧ extended s = true ∧
      step s = .next (jmpIndirect (hiLo (s.load (s.pc + 2)) (s.load (s.pc + 1))) (fetch s))) ∨
    (decodeOpcode (s.load s.pc) = none ∧ extended s = false ∧
      step s = .fault (.unknownOpcode (s.load s.pc) s.pc)) := by
  rcases decodeAtPC_cases s with ⟨i, rest, h⟩ | ⟨hn, h⟩
  · exact .inl ⟨i, rest, h, by rw [step, h]⟩
  · have hs : step s = undecoded (fetch s) := by rw [step, h]
    cases he : extended s with
    | true => exact .inr (.inl ⟨hn, rfl, hs.trans (if_pos he)⟩)
    | false => exact .inr (.inr ⟨hn, rfl, hs.trans (if_neg (ne_true_of_eq_false he))⟩)

end Sys2Proof.Machine
end

