-- ==== Sys2Proof/Tests/Slice0.lean ====
section
/-! SUPPORT. Tests: forms the table does not have are refused, every row's word decodes to its
instruction, small one-step vectors of spec/95_test_vectors.md (a test's name ends in the vector's
name), and for every statement with hypotheses a witness that meets them. Expected values are the
spec's own. -/

namespace Sys2Proof.Tests

open Sys2Proof.Machine

/-! ## Forms -/

/-- No STA immediate, no LDX indexed by X, no BIT immediate, no CPX indexed, no JMP in a mode other
than absolute, no implied form with an operand, no branch without one (R54). -/
theorem test_illFormed_forms_refused :
    wellFormedForm .sta (.imm 0x00) = false ∧ wellFormedForm .ldx (.mem (.zpx 0x10)) = false ∧
    wellFormedForm .bit (.imm 0x10) = false ∧ wellFormedForm .cpx (.mem (.absx 0x1234)) = false ∧
    wellFormedForm .jmp (.mem (.indy 0x10)) = false ∧ wellFormedForm .tax (.imm 0x00) = false ∧
    wellFormedForm .bne .imp = false ∧ wellFormedForm .inc .acc = false ∧
    wellFormedForm .stx (.mem (.zpx 0x10)) = false ∧ wellFormedForm .brk (.imm 0x00) = false := by
  decide

theorem test_wellFormed_forms_accepted :
    wellFormedForm .stx (.mem (.zpy 0x10)) = true ∧ wellFormedForm .asl .acc = true ∧
    wellFormedForm .jsr (.mem (.abs 0x1234)) = true := by
  decide

/-! ## Decoding -/

/-- Every word decodes, whole, to the instruction beside it. -/
def decodesTo (words : List (List Byte × Instr)) : Bool :=
  words.all fun w =>
    match decode w.1 with
    | .ok (i, []) => i == w.2
    | _ => false

/-- One word of every family, its opcode byte bit by bit from the second table of R54. -/
theorem test_words_bit_by_bit : decodesTo
    [([0b10100001, 0x12], .ldaIndx 0x12), ([0b10011001, 0x34, 0x12], .staAbsy 0x1234),
     ([0b10111010], .tsx), ([0b11110101, 0x12], .sbcZpx 0x12), ([0b11010001, 0x12], .cmpIndy 0x12),
     ([0b11011110, 0x34, 0x12], .decAbsx 0x1234), ([0b00101100, 0x34, 0x12], .bitAbs 0x1234),
     ([0b01101010], .rorAcc), ([0b01110000, 0x80], .bvs 0x80), ([0b00001000], .php),
     ([0b00100000, 0x34, 0x12], .jsr 0x1234), ([0b01111000], .sei)] = true := by
  decide

theorem test_decode_load : decodesTo
    [([0xA1, 0x12], .ldaIndx 0x12), ([0xA5, 0x12], .ldaZp 0x12), ([0xA9, 0x12], .ldaImm 0x12),
     ([0xAD, 0x34, 0x12], .ldaAbs 0x1234), ([0xB1, 0x12], .ldaIndy 0x12),
     ([0xB5, 0x12], .ldaZpx 0x12), ([0xB9, 0x34, 0x12], .ldaAbsy 0x1234),
     ([0xBD, 0x34, 0x12], .ldaAbsx 0x1234), ([0xA2, 0x12], .ldxImm 0x12),
     ([0xA6, 0x12], .ldxZp 0x12), ([0xAE, 0x34, 0x12], .ldxAbs 0x1234),
     ([0xB6, 0x12], .ldxZpy 0x12), ([0xBE, 0x34, 0x12], .ldxAbsy 0x1234),
     ([0xA0, 0x12], .ldyImm 0x12), ([0xA4, 0x12], .ldyZp 0x12),
     ([0xAC, 0x34, 0x12], .ldyAbs 0x1234), ([0xB4, 0x12], .ldyZpx 0x12),
     ([0xBC, 0x34, 0x12], .ldyAbsx 0x1234)] = true := by
  decide

theorem test_decode_store : decodesTo
    [([0x81, 0x12], .staIndx 0x12), ([0x85, 0x12], .staZp 0x12),
     ([0x8D, 0x34, 0x12], .staAbs 0x1234), ([0x91, 0x12], .staIndy 0x12),
     ([0x95, 0x12], .staZpx 0x12), ([0x99, 0x34, 0x12], .staAbsy 0x1234),
     ([0x9D, 0x34, 0x12], .staAbsx 0x1234), ([0x86, 0x12], .stxZp 0x12),
     ([0x8E, 0x34, 0x12], .stxAbs 0x1234), ([0x96, 0x12], .stxZpy 0x12),
     ([0x84, 0x12], .styZp 0x12), ([0x8C, 0x34, 0x12], .styAbs 0x1234),
     ([0x94, 0x12], .styZpx 0x12)] = true := by
  decide

theorem test_decode_transfer : decodesTo
    [([0xAA], .tax), ([0xA8], .tay), ([0x8A], .txa), ([0x98], .tya), ([0xBA], .tsx),
     ([0x9A], .txs)] = true := by
  decide

theorem test_decode_add_subtract : decodesTo
    [([0x61, 0x12], .adcIndx 0x12), ([0x65, 0x12], .adcZp 0x12), ([0x69, 0x12], .adcImm 0x12),
     ([0x6D, 0x34, 0x12], .adcAbs 0x1234), ([0x71, 0x12], .adcIndy 0x12),
     ([0x75, 0x12], .adcZpx 0x12), ([0x79, 0x34, 0x12], .adcAbsy 0x1234),
     ([0x7D, 0x34, 0x12], .adcAbsx 0x1234), ([0xE1, 0x12], .sbcIndx 0x12),
     ([0xE5, 0x12], .sbcZp 0x12), ([0xE9, 0x12], .sbcImm 0x12),
     ([0xED, 0x34, 0x12], .sbcAbs 0x1234), ([0xF1, 0x12], .sbcIndy 0x12),
     ([0xF5, 0x12], .sbcZpx 0x12), ([0xF9, 0x34, 0x12], .sbcAbsy 0x1234),
     ([0xFD, 0x34, 0x12], .sbcAbsx 0x1234)] = true := by
  decide

theorem test_decode_compare : decodesTo
    [([0xC1, 0x12], .cmpIndx 0x12), ([0xC5, 0x12], .cmpZp 0x12), ([0xC9, 0x12], .cmpImm 0x12),
     ([0xCD, 0x34, 0x12], .cmpAbs 0x1234), ([0xD1, 0x12], .cmpIndy 0x12),
     ([0xD5, 0x12], .cmpZpx 0x12), ([0xD9, 0x34, 0x12], .cmpAbsy 0x1234),
     ([0xDD, 0x34, 0x12], .cmpAbsx 0x1234), ([0xE0, 0x12], .cpxImm 0x12),
     ([0xE4, 0x12], .cpxZp 0x12), ([0xEC, 0x34, 0x12], .cpxAbs 0x1234),
     ([0xC0, 0x12], .cpyImm 0x12), ([0xC4, 0x12], .cpyZp 0x12),
     ([0xCC, 0x34, 0x12], .cpyAbs 0x1234)] = true := by
  decide

theorem test_decode_count : decodesTo
    [([0xE6, 0x12], .incZp 0x12), ([0xEE, 0x34, 0x12], .incAbs 0x1234),
     ([0xF6, 0x12], .incZpx 0x12), ([0xFE, 0x34, 0x12], .incAbsx 0x1234),
     ([0xC6, 0x12], .decZp 0x12), ([0xCE, 0x34, 0x12], .decAbs 0x1234),
     ([0xD6, 0x12], .decZpx 0x12), ([0xDE, 0x34, 0x12], .decAbsx 0x1234), ([0xE8], .inx),
     ([0xC8], .iny), ([0xCA], .dex), ([0x88], .dey)] = true := by
  decide

theorem test_decode_logic : decodesTo
    [([0x21, 0x12], .andIndx 0x12), ([0x25, 0x12], .andZp 0x12), ([0x29, 0x12], .andImm 0x12),
     ([0x2D, 0x34, 0x12], .andAbs 0x1234), ([0x31, 0x12], .andIndy 0x12),
     ([0x35, 0x12], .andZpx 0x12), ([0x39, 0x34, 0x12], .andAbsy 0x1234),
     ([0x3D, 0x34, 0x12], .andAbsx 0x1234), ([0x01, 0x12], .oraIndx 0x12),
     ([0x05, 0x12], .oraZp 0x12), ([0x09, 0x12], .oraImm 0x12),
     ([0x0D, 0x34, 0x12], .oraAbs 0x1234), ([0x11, 0x12], .oraIndy 0x12),
     ([0x15, 0x12], .oraZpx 0x12), ([0x19, 0x34, 0x12], .oraAbsy 0x1234),
     ([0x1D, 0x34, 0x12], .oraAbsx 0x1234), ([0x41, 0x12], .eorIndx 0x12),
     ([0x45, 0x12], .eorZp 0x12), ([0x49, 0x12], .eorImm 0x12),
     ([0x4D, 0x34, 0x12], .eorAbs 0x1234), ([0x51, 0x12], .eorIndy 0x12),
     ([0x55, 0x12], .eorZpx 0x12), ([0x59, 0x34, 0x12], .eorAbsy 0x1234),
     ([0x5D, 0x34, 0x12], .eorAbsx 0x1234), ([0x24, 0x12], .bitZp 0x12),
     ([0x2C, 0x34, 0x12], .bitAbs 0x1234)] = true := by
  decide

theorem test_decode_shift : decodesTo
    [([0x06, 0x12], .aslZp 0x12), ([0x0A], .aslAcc), ([0x0E, 0x34, 0x12], .aslAbs 0x1234),
     ([0x16, 0x12], .aslZpx 0x12), ([0x1E, 0x34, 0x12], .aslAbsx 0x1234),
     ([0x46, 0x12], .lsrZp 0x12), ([0x4A], .lsrAcc), ([0x4E, 0x34, 0x12], .lsrAbs 0x1234),
     ([0x56, 0x12], .lsrZpx 0x12), ([0x5E, 0x34, 0x12], .lsrAbsx 0x1234),
     ([0x26, 0x12], .rolZp 0x12), ([0x2A], .rolAcc), ([0x2E, 0x34, 0x12], .rolAbs 0x1234),
     ([0x36, 0x12], .rolZpx 0x12), ([0x3E, 0x34, 0x12], .rolAbsx 0x1234),
     ([0x66, 0x12], .rorZp 0x12), ([0x6A], .rorAcc), ([0x6E, 0x34, 0x12], .rorAbs 0x1234),
     ([0x76, 0x12], .rorZpx 0x12), ([0x7E, 0x34, 0x12], .rorAbsx 0x1234)] = true := by
  decide

theorem test_decode_branch : decodesTo
    [([0x90, 0x12], .bcc 0x12), ([0xB0, 0x12], .bcs 0x12), ([0xF0, 0x12], .beq 0x12),
     ([0x30, 0x12], .bmi 0x12), ([0xD0, 0x12], .bne 0x12), ([0x10, 0x12], .bpl 0x12),
     ([0x50, 0x12], .bvc 0x12), ([0x70, 0x12], .bvs 0x12)] = true := by
  decide

theorem test_decode_stack : decodesTo
    [([0x48], .pha), ([0x68], .pla), ([0x08], .php), ([0x28], .plp)] = true := by
  decide

theorem test_decode_jump : decodesTo
    [([0x4C, 0x34, 0x12], .jmp 0x1234), ([0x20, 0x34, 0x12], .jsr 0x1234), ([0x60], .rts),
     ([0x40], .rti)] = true := by
  decide

theorem test_decode_flag_misc : decodesTo
    [([0x18], .clc), ([0x38], .sec), ([0x58], .cli), ([0x78], .sei), ([0xB8], .clv),
     ([0xD8], .cld), ([0xF8], .sed), ([0xEA], .nop), ([0x00], .brk)] = true := by
  decide

/-- The host's numbering of a word: 4C 34 12 is bits 0x12344C, and a row's operand bits above `nbits`
are 0. -/
theorem test_decodeTableWord :
    decodeTableWord 24 0x12344C = some (.jmp 0x1234) ∧ decodeTableWord 8 0xFF6A = some .rorAcc ∧
    decodeTableWord 8 0x02 = none := by
  decide

theorem test_withFetchWord_runs :
    (stepPort (State.reset.withFetchWord 24 0x12344C)).pc = 0x1234 ∧
    (stepPort (State.reset.withFetchWord 8 0xFFEA)).pc = 0x0001 := by
  decide

/-! ## One step -/

/-- A core with the given registers and the default configuration, and the listed bytes in memory. -/
def cpu (a x y p sp : Byte) (pc : Addr) (bytes : List (Addr × Byte)) : State :=
  bytes.foldl (fun s c => s.store c.1 c.2)
    { State.reset with a := a, x := x, y := y, p := p, sp := sp, pc := pc }

/-- What a vector shows of one step: A, X, Y, P and SP, PC, the bytes at the addresses written, the
signals and the result. -/
structure Seen where
  regs : List Byte
  pc : Addr
  written : List Byte
  diagnostics : List Diagnostic
  result : StepResult
  deriving DecidableEq, Repr

def after (s : State) (written : List Addr) : Seen :=
  let t := stepPort s
  ⟨[t.a, t.x, t.y, t.p, t.sp], t.pc, written.map t.load, t.diagnostics, t.result⟩

theorem test_lda_AM1 : after (cpu 0x00 0x00 0x00 0x30 0xFF 0x0200
      [(0x0200, 0xA9), (0x0201, 0x7F)]) [] =
    ⟨[0x7F, 0x00, 0x00, 0x30, 0xFF], 0x0202, [], [], .ok⟩ := by decide

theorem test_lda_AM3 : after (cpu 0x00 0xFF 0x00 0x30 0xFF 0x0200
      [(0x0200, 0xB5), (0x0201, 0x80), (0x007F, 0x11), (0x017F, 0x22)]) [] =
    ⟨[0x11, 0xFF, 0x00, 0x30, 0xFF], 0x0202, [], [], .ok⟩ := by decide

theorem test_ldx_AM4 : after (cpu 0x00 0x00 0xFF 0x30 0xFF 0x0200
      [(0x0200, 0xB6), (0x0201, 0x80), (0x007F, 0x33), (0x017F, 0x44)]) [] =
    ⟨[0x00, 0x33, 0xFF, 0x30, 0xFF], 0x0202, [], [], .ok⟩ := by decide

theorem test_lda_AM5 : after (cpu 0x00 0x00 0x00 0x30 0xFF 0x0200
      [(0x0200, 0xAD), (0x0201, 0x34), (0x0202, 0x12), (0x1234, 0x55)]) [] =
    ⟨[0x55, 0x00, 0x00, 0x30, 0xFF], 0x0203, [], [], .ok⟩ := by decide

theorem test_lda_AM7 : after (cpu 0x00 0x02 0x00 0x30 0xFF 0x0200
      [(0x0200, 0xBD), (0x0201, 0xFF), (0x0202, 0xFF), (0x0001, 0x77)]) [] =
    ⟨[0x77, 0x02, 0x00, 0x30, 0xFF], 0x0203, [], [], .ok⟩ := by decide

theorem test_lda_AM8 : after (cpu 0x00 0x00 0x10 0x30 0xFF 0x0200
      [(0x0200, 0xB9), (0x0201, 0xF0), (0x0202, 0xFF), (0x0000, 0x88)]) [] =
    ⟨[0x88, 0x00, 0x10, 0xB0, 0xFF], 0x0203, [], [], .ok⟩ := by decide

theorem test_lda_AM10 : after (cpu 0x00 0x01 0x00 0x30 0xFF 0x0200
      [(0x0200, 0xA1), (0x0201, 0xFE), (0x00FF, 0x40), (0x0000, 0x30), (0x0100, 0x50), (0x3040, 0xAA), (0x5040, 0xBB)]) [] =
    ⟨[0xAA, 0x01, 0x00, 0xB0, 0xFF], 0x0202, [], [], .ok⟩ := by decide

theorem test_lda_AM13a : after (cpu 0x00 0x00 0x01 0x30 0xFF 0x0200
      [(0x0200, 0xB1), (0x0201, 0xFF), (0x00FF, 0x00), (0x0000, 0x40), (0x0100, 0x50), (0x4001, 0xC1), (0x5001, 0xC2)]) [] =
    ⟨[0xC2, 0x00, 0x01, 0xB0, 0xFF], 0x0202, [], [], .ok⟩ := by decide

theorem test_lda_AM13b : after { (cpu 0x00 0x00 0x01 0x30 0xFF 0x0200
      [(0x0200, 0xB1), (0x0201, 0xFF), (0x00FF, 0x00), (0x0000, 0x40), (0x0100, 0x50), (0x4001, 0xC1), (0x5001, 0xC2)]) with cfg := { Cfg.default with indyPtrZpWrap := true } } [] =
    ⟨[0xC1, 0x00, 0x01, 0xB0, 0xFF], 0x0202, [], [], .ok⟩ := by decide

theorem test_lda_AM16 : after (cpu 0x00 0x00 0x00 0x30 0xFF 0xFFFE
      [(0xFFFE, 0xAD), (0xFFFF, 0x00), (0x0000, 0x34), (0x3400, 0x5A)]) [] =
    ⟨[0x5A, 0x00, 0x00, 0x30, 0xFF], 0x0001, [], [], .ok⟩ := by decide

theorem test_ldx_LS3 : after (cpu 0x00 0x00 0x00 0x30 0xFF 0x0200
      [(0x0200, 0xA2), (0x0201, 0xFF)]) [] =
    ⟨[0x00, 0xFF, 0x00, 0xB0, 0xFF], 0x0202, [], [], .ok⟩ := by decide

theorem test_ldy_LS4 : after (cpu 0x00 0x05 0x00 0x30 0xFF 0x0200
      [(0x0200, 0xB4), (0x0201, 0x30), (0x0035, 0x00)]) [] =
    ⟨[0x00, 0x05, 0x00, 0x32, 0xFF], 0x0202, [], [], .ok⟩ := by decide

theorem test_sta_LS5 : after (cpu 0x00 0x00 0x00 0xB0 0xFF 0x0200
      [(0x0200, 0x85), (0x0201, 0x40), (0x0040, 0x99)]) [0x0040] =
    ⟨[0x00, 0x00, 0x00, 0xB0, 0xFF], 0x0202, [0x00], [], .ok⟩ := by decide

theorem test_sta_LS6 : after (cpu 0x80 0x00 0xFF 0x30 0xFF 0x0200
      [(0x0200, 0x99), (0x0201, 0x00), (0x0202, 0x10)]) [0x10FF] =
    ⟨[0x80, 0x00, 0xFF, 0x30, 0xFF], 0x0203, [0x80], [], .ok⟩ := by decide

theorem test_sta_LS7 : after (cpu 0x77 0x00 0x01 0x30 0xFF 0x0200
      [(0x0200, 0x91), (0x0201, 0x20), (0x0020, 0xFF), (0x0021, 0x02)]) [0x0300] =
    ⟨[0x77, 0x00, 0x01, 0x30, 0xFF], 0x0202, [0x77], [], .ok⟩ := by decide

theorem test_stx_LS8 : after (cpu 0x00 0x12 0x90 0x30 0xFF 0x0200
      [(0x0200, 0x96), (0x0201, 0x80)]) [0x0010] =
    ⟨[0x00, 0x12, 0x90, 0x30, 0xFF], 0x0202, [0x12], [], .ok⟩ := by decide

theorem test_sty_LS9 : after (cpu 0x00 0x00 0xFE 0x30 0xFF 0x0200
      [(0x0200, 0x8C), (0x0201, 0x00), (0x0202, 0x03)]) [0x0300] =
    ⟨[0x00, 0x00, 0xFE, 0x30, 0xFF], 0x0203, [0xFE], [], .ok⟩ := by decide

theorem test_tax_LS11 : after (cpu 0x80 0x00 0x00 0x30 0xFF 0x0200
      [(0x0200, 0xAA)]) [] =
    ⟨[0x80, 0x80, 0x00, 0xB0, 0xFF], 0x0201, [], [], .ok⟩ := by decide

theorem test_tay_LS12 : after (cpu 0x00 0x00 0x33 0x30 0xFF 0x0200
      [(0x0200, 0xA8)]) [] =
    ⟨[0x00, 0x00, 0x00, 0x32, 0xFF], 0x0201, [], [], .ok⟩ := by decide

theorem test_txa_LS13 : after (cpu 0xFF 0x7F 0x00 0xB0 0xFF 0x0200
      [(0x0200, 0x8A)]) [] =
    ⟨[0x7F, 0x7F, 0x00, 0x30, 0xFF], 0x0201, [], [], .ok⟩ := by decide

theorem test_tya_LS14 : after (cpu 0x00 0x00 0xC0 0x30 0xFF 0x0200
      [(0x0200, 0x98)]) [] =
    ⟨[0xC0, 0x00, 0xC0, 0xB0, 0xFF], 0x0201, [], [], .ok⟩ := by decide

theorem test_tsx_LS15 : after (cpu 0x00 0x00 0x00 0x30 0xFF 0x0200
      [(0x0200, 0xBA)]) [] =
    ⟨[0x00, 0xFF, 0x00, 0xB0, 0xFF], 0x0201, [], [], .ok⟩ := by decide

theorem test_tsx_LS16 : after (cpu 0x00 0x11 0x00 0x30 0x00 0x0200
      [(0x0200, 0xBA)]) [] =
    ⟨[0x00, 0x00, 0x00, 0x32, 0x00], 0x0201, [], [], .ok⟩ := by decide

theorem test_txs_LS17 : after (cpu 0x00 0x00 0x00 0xB0 0xFF 0x0200
      [(0x0200, 0x9A)]) [] =
    ⟨[0x00, 0x00, 0x00, 0xB0, 0x00], 0x0201, [], [], .ok⟩ := by decide

theorem test_txs_LS18 : after (cpu 0x00 0x80 0x00 0x30 0xFF 0x0200
      [(0x0200, 0x9A)]) [] =
    ⟨[0x00, 0x80, 0x00, 0x30, 0x80], 0x0201, [], [], .ok⟩ := by decide

theorem test_adc_AR3 : after (cpu 0x7F 0x00 0x00 0x31 0xFF 0x0200
      [(0x0200, 0x69), (0x0201, 0x00)]) [] =
    ⟨[0x80, 0x00, 0x00, 0xF0, 0xFF], 0x0202, [], [], .ok⟩ := by decide

theorem test_adc_AR4 : after (cpu 0x80 0x00 0x00 0x30 0xFF 0x0200
      [(0x0200, 0x69), (0x0201, 0x80)]) [] =
    ⟨[0x00, 0x00, 0x00, 0x73, 0xFF], 0x0202, [], [], .ok⟩ := by decide

theorem test_adc_AR9 : after (cpu 0x01 0x00 0x00 0xF1 0xFF 0x0200
      [(0x0200, 0x65), (0x0201, 0x10), (0x0010, 0x01)]) [] =
    ⟨[0x03, 0x00, 0x00, 0x30, 0xFF], 0x0202, [], [], .ok⟩ := by decide

theorem test_sbc_AR12 : after (cpu 0x80 0x00 0x00 0x31 0xFF 0x0200
      [(0x0200, 0xE9), (0x0201, 0x01)]) [] =
    ⟨[0x7F, 0x00, 0x00, 0x71, 0xFF], 0x0202, [], [], .ok⟩ := by decide

theorem test_sbc_AR13 : after (cpu 0x05 0x00 0x00 0x30 0xFF 0x0200
      [(0x0200, 0xE9), (0x0201, 0x00)]) [] =
    ⟨[0x04, 0x00, 0x00, 0x31, 0xFF], 0x0202, [], [], .ok⟩ := by decide

theorem test_cmp_AR18 : after (cpu 0x40 0x00 0x00 0xF0 0xFF 0x0200
      [(0x0200, 0xC9), (0x0201, 0x40)]) [] =
    ⟨[0x40, 0x00, 0x00, 0x73, 0xFF], 0x0202, [], [], .ok⟩ := by decide

theorem test_cmp_AR23 : after (cpu 0x7F 0x00 0x00 0x70 0xFF 0x0200
      [(0x0200, 0xC9), (0x0201, 0x80)]) [] =
    ⟨[0x7F, 0x00, 0x00, 0xF0, 0xFF], 0x0202, [], [], .ok⟩ := by decide

theorem test_cpx_AR24 : after (cpu 0x00 0x10 0x00 0x30 0xFF 0x0200
      [(0x0200, 0xE4), (0x0201, 0x10), (0x0010, 0x0F)]) [] =
    ⟨[0x00, 0x10, 0x00, 0x31, 0xFF], 0x0202, [], [], .ok⟩ := by decide

theorem test_cpy_AR25 : after (cpu 0x00 0x00 0xFE 0x30 0xFF 0x0200
      [(0x0200, 0xC0), (0x0201, 0xFF)]) [] =
    ⟨[0x00, 0x00, 0xFE, 0xB0, 0xFF], 0x0202, [], [], .ok⟩ := by decide

theorem test_inc_AR26 : after (cpu 0x00 0x00 0x00 0x31 0xFF 0x0200
      [(0x0200, 0xE6), (0x0201, 0x10), (0x0010, 0xFF)]) [0x0010] =
    ⟨[0x00, 0x00, 0x00, 0x33, 0xFF], 0x0202, [0x00], [], .ok⟩ := by decide

theorem test_dec_AR28 : after (cpu 0x00 0x01 0x00 0x30 0xFF 0x0200
      [(0x0200, 0xDE), (0x0201, 0x00), (0x0202, 0x03), (0x0301, 0x00)]) [0x0301] =
    ⟨[0x00, 0x01, 0x00, 0xB0, 0xFF], 0x0203, [0xFF], [], .ok⟩ := by decide

theorem test_inx_AR30 : after (cpu 0x00 0xFF 0x00 0x30 0xFF 0x0200
      [(0x0200, 0xE8)]) [] =
    ⟨[0x00, 0x00, 0x00, 0x32, 0xFF], 0x0201, [], [], .ok⟩ := by decide

theorem test_iny_AR31 : after (cpu 0x00 0x00 0x7F 0x30 0xFF 0x0200
      [(0x0200, 0xC8)]) [] =
    ⟨[0x00, 0x00, 0x80, 0xB0, 0xFF], 0x0201, [], [], .ok⟩ := by decide

theorem test_dex_AR32 : after (cpu 0x00 0x00 0x00 0x30 0xFF 0x0200
      [(0x0200, 0xCA)]) [] =
    ⟨[0x00, 0xFF, 0x00, 0xB0, 0xFF], 0x0201, [], [], .ok⟩ := by decide

theorem test_dey_AR33 : after (cpu 0x00 0x00 0x01 0x30 0xFF 0x0200
      [(0x0200, 0x88)]) [] =
    ⟨[0x00, 0x00, 0x00, 0x32, 0xFF], 0x0201, [], [], .ok⟩ := by decide

theorem test_and_LG1 : after (cpu 0xF0 0x00 0x00 0x30 0xFF 0x0200
      [(0x0200, 0x29), (0x0201, 0x0F)]) [] =
    ⟨[0x00, 0x00, 0x00, 0x32, 0xFF], 0x0202, [], [], .ok⟩ := by decide

theorem test_ora_LG3 : after (cpu 0x01 0x00 0x00 0x30 0xFF 0x0200
      [(0x0200, 0x09), (0x0201, 0x80)]) [] =
    ⟨[0x81, 0x00, 0x00, 0xB0, 0xFF], 0x0202, [], [], .ok⟩ := by decide

theorem test_eor_LG6 : after (cpu 0x0F 0x00 0x00 0x30 0xFF 0x0200
      [(0x0200, 0x49), (0x0201, 0xFF)]) [] =
    ⟨[0xF0, 0x00, 0x00, 0xB0, 0xFF], 0x0202, [], [], .ok⟩ := by decide

theorem test_bit_LG7 : after (cpu 0x01 0x00 0x00 0x30 0xFF 0x0200
      [(0x0200, 0x24), (0x0201, 0x10), (0x0010, 0xC0)]) [] =
    ⟨[0x01, 0x00, 0x00, 0xF2, 0xFF], 0x0202, [], [], .ok⟩ := by decide

theorem test_bit_LG9 : after (cpu 0xFF 0x00 0x00 0xF2 0xFF 0x0200
      [(0x0200, 0x2C), (0x0201, 0x00), (0x0202, 0x03), (0x0300, 0x3F)]) [] =
    ⟨[0xFF, 0x00, 0x00, 0x30, 0xFF], 0x0203, [], [], .ok⟩ := by decide

theorem test_asl_SH2 : after (cpu 0x41 0x00 0x00 0x31 0xFF 0x0200
      [(0x0200, 0x0A)]) [] =
    ⟨[0x82, 0x00, 0x00, 0xB0, 0xFF], 0x0201, [], [], .ok⟩ := by decide

theorem test_asl_SH3 : after (cpu 0x00 0x00 0x00 0x30 0xFF 0x0200
      [(0x0200, 0x06), (0x0201, 0x10), (0x0010, 0xC0)]) [0x0010] =
    ⟨[0x00, 0x00, 0x00, 0xB1, 0xFF], 0x0202, [0x80], [], .ok⟩ := by decide

theorem test_lsr_SH5 : after (cpu 0xFF 0x00 0x00 0xB0 0xFF 0x0200
      [(0x0200, 0x4A)]) [] =
    ⟨[0x7F, 0x00, 0x00, 0x31, 0xFF], 0x0201, [], [], .ok⟩ := by decide

theorem test_lsr_SH6 : after (cpu 0x00 0x00 0x00 0x31 0xFF 0x0200
      [(0x0200, 0x4E), (0x0201, 0x00), (0x0202, 0x03), (0x0300, 0x02)]) [0x0300] =
    ⟨[0x00, 0x00, 0x00, 0x30, 0xFF], 0x0203, [0x01], [], .ok⟩ := by decide

theorem test_rol_SH7 : after (cpu 0x80 0x00 0x00 0x31 0xFF 0x0200
      [(0x0200, 0x2A)]) [] =
    ⟨[0x01, 0x00, 0x00, 0x31, 0xFF], 0x0201, [], [], .ok⟩ := by decide

theorem test_rol_SH9 : after (cpu 0x00 0xF8 0x00 0x31 0xFF 0x0200
      [(0x0200, 0x36), (0x0201, 0x10), (0x0008, 0x40)]) [0x0008] =
    ⟨[0x00, 0xF8, 0x00, 0xB0, 0xFF], 0x0202, [0x81], [], .ok⟩ := by decide

theorem test_ror_SH11 : after (cpu 0x00 0x00 0x00 0x31 0xFF 0x0200
      [(0x0200, 0x6A)]) [] =
    ⟨[0x80, 0x00, 0x00, 0xB0, 0xFF], 0x0201, [], [], .ok⟩ := by decide

theorem test_ror_SH12 : after (cpu 0x00 0x02 0x00 0x31 0xFF 0x0200
      [(0x0200, 0x7E), (0x0201, 0x00), (0x0202, 0x03), (0x0302, 0x03)]) [0x0302] =
    ⟨[0x00, 0x02, 0x00, 0xB1, 0xFF], 0x0203, [0x81], [], .ok⟩ := by decide

theorem test_bne_BR2 : after (cpu 0x00 0x00 0x00 0x32 0xFF 0x0200
      [(0x0200, 0xD0), (0x0201, 0x04)]) [] =
    ⟨[0x00, 0x00, 0x00, 0x32, 0xFF], 0x0202, [], [], .ok⟩ := by decide

theorem test_beq_BR3 : after (cpu 0x00 0x00 0x00 0x32 0xFF 0x0200
      [(0x0200, 0xF0), (0x0201, 0xFE)]) [] =
    ⟨[0x00, 0x00, 0x00, 0x32, 0xFF], 0x0200, [], [], .ok⟩ := by decide

theorem test_bcc_BR5 : after (cpu 0x00 0x00 0x00 0x30 0xFF 0x0200
      [(0x0200, 0x90), (0x0201, 0x7F)]) [] =
    ⟨[0x00, 0x00, 0x00, 0x30, 0xFF], 0x0281, [], [], .ok⟩ := by decide

theorem test_bcs_BR6 : after (cpu 0x00 0x00 0x00 0x31 0xFF 0x0200
      [(0x0200, 0xB0), (0x0201, 0x80)]) [] =
    ⟨[0x00, 0x00, 0x00, 0x31, 0xFF], 0x0182, [], [], .ok⟩ := by decide

theorem test_bmi_BR8 : after (cpu 0x00 0x00 0x00 0xB0 0xFF 0x02F8
      [(0x02F8, 0x30), (0x02F9, 0x10)]) [] =
    ⟨[0x00, 0x00, 0x00, 0xB0, 0xFF], 0x030A, [], [], .ok⟩ := by decide

theorem test_bpl_BR9 : after (cpu 0x00 0x00 0x00 0x30 0xFF 0x0300
      [(0x0300, 0x10), (0x0301, 0xF0)]) [] =
    ⟨[0x00, 0x00, 0x00, 0x30, 0xFF], 0x02F2, [], [], .ok⟩ := by decide

theorem test_bvc_BR10 : after (cpu 0x00 0x00 0x00 0x70 0xFF 0x0200
      [(0x0200, 0x50), (0x0201, 0x02)]) [] =
    ⟨[0x00, 0x00, 0x00, 0x70, 0xFF], 0x0202, [], [], .ok⟩ := by decide

theorem test_bvs_BR11 : after (cpu 0x00 0x00 0x00 0x70 0xFF 0x0200
      [(0x0200, 0x70), (0x0201, 0x02)]) [] =
    ⟨[0x00, 0x00, 0x00, 0x70, 0xFF], 0x0204, [], [], .ok⟩ := by decide

theorem test_bne_BR15 : after (cpu 0x00 0x00 0x00 0x30 0xFF 0xFFFC
      [(0xFFFC, 0xD0), (0xFFFD, 0x05)]) [] =
    ⟨[0x00, 0x00, 0x00, 0x30, 0xFF], 0x0003, [], [], .ok⟩ := by decide

theorem test_pha_ST1 : after (cpu 0x42 0x00 0x00 0x30 0xFF 0x0200
      [(0x0200, 0x48)]) [0x01FF] =
    ⟨[0x42, 0x00, 0x00, 0x30, 0xFE], 0x0201, [0x42], [], .ok⟩ := by decide

theorem test_pha_ST9 : after (cpu 0x99 0x00 0x00 0x30 0x00 0x0200
      [(0x0200, 0x48)]) [0x0100] =
    ⟨[0x99, 0x00, 0x00, 0x30, 0xFF], 0x0201, [0x99], [.stackOverflow], .ok⟩ := by decide

theorem test_pla_ST2 : after (cpu 0x11 0x00 0x00 0x30 0xFE 0x0200
      [(0x0200, 0x68), (0x01FF, 0x80)]) [] =
    ⟨[0x80, 0x00, 0x00, 0xB0, 0xFF], 0x0201, [], [], .ok⟩ := by decide

theorem test_pla_ST10 : after (cpu 0x00 0x00 0x00 0x30 0xFF 0x0200
      [(0x0200, 0x68), (0x0100, 0x7E)]) [] =
    ⟨[0x7E, 0x00, 0x00, 0x30, 0x00], 0x0201, [], [.stackUnderflow], .ok⟩ := by decide

theorem test_php_ST4 : after (cpu 0x00 0x00 0x00 0xF3 0xFF 0x0200
      [(0x0200, 0x08)]) [0x01FF] =
    ⟨[0x00, 0x00, 0x00, 0xF3, 0xFE], 0x0201, [0xF3], [], .ok⟩ := by decide

theorem test_plp_ST6 : after (cpu 0x00 0x00 0x00 0x30 0xFE 0x0200
      [(0x0200, 0x28), (0x01FF, 0x00)]) [] =
    ⟨[0x00, 0x00, 0x00, 0x30, 0xFF], 0x0201, [], [], .ok⟩ := by decide

theorem test_plp_ST8 : after (cpu 0x00 0x00 0x00 0xFF 0xFE 0x0200
      [(0x0200, 0x28), (0x01FF, 0x41)]) [] =
    ⟨[0x00, 0x00, 0x00, 0x71, 0xFF], 0x0201, [], [], .ok⟩ := by decide

theorem test_jmp_JS1 : after (cpu 0x00 0x00 0x00 0x30 0xFF 0x0200
      [(0x0200, 0x4C), (0x0201, 0x34), (0x0202, 0x12)]) [] =
    ⟨[0x00, 0x00, 0x00, 0x30, 0xFF], 0x1234, [], [], .ok⟩ := by decide

theorem test_jsr_JS4 : after (cpu 0x00 0x00 0x00 0x30 0xFF 0x12FE
      [(0x12FE, 0x20), (0x12FF, 0x00), (0x1300, 0x03)]) [0x01FF, 0x01FE] =
    ⟨[0x00, 0x00, 0x00, 0x30, 0xFD], 0x0300, [0x13, 0x00], [], .ok⟩ := by decide

theorem test_jsr_JS14 : after (cpu 0x00 0x00 0x00 0x30 0xFF 0x01FD
      [(0x01FD, 0x20), (0x01FE, 0xFF), (0x01FF, 0x03)]) [0x01FF, 0x01FE] =
    ⟨[0x00, 0x00, 0x00, 0x30, 0xFD], 0x03FF, [0x01, 0xFF], [], .ok⟩ := by decide

theorem test_rts_JS6 : after (cpu 0x00 0x00 0x00 0x30 0xFD 0x0300
      [(0x0300, 0x60), (0x01FE, 0xFF), (0x01FF, 0xFF)]) [] =
    ⟨[0x00, 0x00, 0x00, 0x30, 0xFF], 0x0000, [], [], .ok⟩ := by decide

theorem test_rts_JS13 : after (cpu 0x00 0x00 0x00 0x30 0xFE 0x0300
      [(0x0300, 0x60), (0x01FF, 0x10), (0x0100, 0x20)]) [] =
    ⟨[0x00, 0x00, 0x00, 0x30, 0x00], 0x2011, [], [.stackUnderflow], .ok⟩ := by decide

theorem test_rti_JS8a : after (cpu 0x00 0x00 0x00 0x30 0xFC 0x0300
      [(0x0300, 0x40), (0x01FD, 0xC3), (0x01FE, 0x34), (0x01FF, 0x12)]) [] =
    ⟨[0x00, 0x00, 0x00, 0xF3, 0xFF], 0x1235, [], [], .ok⟩ := by decide

theorem test_rti_JS8b : after { (cpu 0x00 0x00 0x00 0x30 0xFC 0x0300
      [(0x0300, 0x40), (0x01FD, 0xC3), (0x01FE, 0x34), (0x01FF, 0x12)]) with cfg := { Cfg.default with rtiPcIncrement := false } } [] =
    ⟨[0x00, 0x00, 0x00, 0xF3, 0xFF], 0x1234, [], [], .ok⟩ := by decide

theorem test_clc_FL1 : after (cpu 0x00 0x00 0x00 0xFF 0xFF 0x0200
      [(0x0200, 0x18)]) [] =
    ⟨[0x00, 0x00, 0x00, 0xFE, 0xFF], 0x0201, [], [], .ok⟩ := by decide

theorem test_sec_FL2 : after (cpu 0x00 0x00 0x00 0x30 0xFF 0x0200
      [(0x0200, 0x38)]) [] =
    ⟨[0x00, 0x00, 0x00, 0x31, 0xFF], 0x0201, [], [], .ok⟩ := by decide

theorem test_cli_FL3 : after (cpu 0x00 0x00 0x00 0xFF 0xFF 0x0200
      [(0x0200, 0x58)]) [] =
    ⟨[0x00, 0x00, 0x00, 0xFB, 0xFF], 0x0201, [], [], .ok⟩ := by decide

theorem test_sei_FL4 : after (cpu 0x00 0x00 0x00 0x30 0xFF 0x0200
      [(0x0200, 0x78)]) [] =
    ⟨[0x00, 0x00, 0x00, 0x34, 0xFF], 0x0201, [], [], .ok⟩ := by decide

theorem test_clv_FL5 : after (cpu 0x00 0x00 0x00 0xFF 0xFF 0x0200
      [(0x0200, 0xB8)]) [] =
    ⟨[0x00, 0x00, 0x00, 0xBF, 0xFF], 0x0201, [], [], .ok⟩ := by decide

theorem test_cld_FL6 : after (cpu 0x00 0x00 0x00 0xFF 0xFF 0x0200
      [(0x0200, 0xD8)]) [] =
    ⟨[0x00, 0x00, 0x00, 0xF7, 0xFF], 0x0201, [], [], .ok⟩ := by decide

theorem test_sed_FL7 : after (cpu 0x00 0x00 0x00 0x30 0xFF 0x0200
      [(0x0200, 0xF8)]) [] =
    ⟨[0x00, 0x00, 0x00, 0x38, 0xFF], 0x0201, [], [], .ok⟩ := by decide

theorem test_nop_FL8 : after (cpu 0x01 0x02 0x03 0xF3 0x80 0x0200
      [(0x0200, 0xEA)]) [] =
    ⟨[0x01, 0x02, 0x03, 0xF3, 0x80], 0x0201, [], [], .ok⟩ := by decide

theorem test_halt_FL9 : after (cpu 0x01 0x02 0x03 0xF3 0x80 0x0200
      [(0x0200, 0x00)]) [] =
    ⟨[0x01, 0x02, 0x03, 0xF3, 0x80], 0x0200, [], [], .halted⟩ := by decide

theorem test_unknown_UN1 : after (cpu 0x00 0x00 0x00 0x30 0xFF 0x0000
      [(0x0000, 0xFF)]) [] =
    ⟨[0x00, 0x00, 0x00, 0x30, 0xFF], 0x0000, [], [], .unknownOpcode 0xFF 0x0000⟩ := by decide

theorem test_unknown_UN2 : after (cpu 0x00 0x00 0x00 0x30 0xFF 0x0200
      [(0x0200, 0x6C), (0x0201, 0x00), (0x0202, 0x03), (0x0301, 0x04)]) [] =
    ⟨[0x00, 0x00, 0x00, 0x30, 0xFF], 0x0200, [], [], .unknownOpcode 0x6C 0x0200⟩ := by decide

/-! ## Witnesses -/

/-- A core at 0x0200 in the state after reset, and the listed bytes there. -/
def at0200 (bytes : List Byte) : State := { State.reset with pc := 0x0200 }.storeBytes 0x0200 bytes

/-- The same with the optional extension on. -/
def extendedAt0200 (bytes : List Byte) : State :=
  { at0200 bytes with cfg := { Cfg.default with extJmpIndirect := true } }

theorem witness_EncodeOfDecodeIsTheBytes :
    decode [0xAD, 0x34, 0x12, 0xEA] = .ok (.ldaAbs 0x1234, [0xEA]) := rfl

theorem witness_OpcodesTheSourceGives :
    let s := cpu 0x00 0x00 0x00 0x30 0xFF 0x0000 [(0x0000, 0xFF)]
    s.pc = 0x0000 ∧ s.load 0x0000 = 0xFF := by decide

theorem witness_EveryFormIsOneInstruction :
    wellFormedForm .lda (.imm 0x00) = true ∧ wellFormedForm .ror (.mem (.absx 0xFFFF)) = true := by
  decide

/-- The instruction lies across the end of memory (AM16). -/
theorem witness_StepRunsTheDecodedInstruction :
    let s := cpu 0x00 0x00 0x00 0x30 0xFF 0xFFFE [(0xFFFE, 0xAD), (0x0000, 0x34)]
    decode [s.load s.pc, s.load (s.pc + 1), s.load (s.pc + 2)] = .ok (.ldaAbs 0x3400, []) := rfl

/-- The first and the last byte of every class, and 0x6C in two of them. -/
theorem witness_StepResultIsDecidedByTheOpcodeByte :
    (at0200 [0x00]).load (at0200 [0x00]).pc = 0x00 ∧
    (∀ op ∈ [0x02#8, 0x6C#8, 0xFF#8], (at0200 [op]).load (at0200 [op]).pc ∈ unknownBytes ∧
      extended (at0200 [op]) = false) ∧
    (∀ op ∈ [0x01#8, 0xFE#8], (at0200 [op]).load (at0200 [op]).pc ≠ 0x00 ∧
      (at0200 [op]).load (at0200 [op]).pc ∉ unknownBytes) ∧
    extended (extendedAt0200 [0x6C]) = true ∧
    (extendedAt0200 [0x6C]).load (extendedAt0200 [0x6C]).pc ≠ 0x00 := by decide

theorem witness_UnknownOpcodeChangesOnlyIR :
    (at0200 [0x6C]).load (at0200 [0x6C]).pc ∈ unknownBytes ∧ extended (at0200 [0x6C]) = false ∧
    (extendedAt0200 [0x02]).load (extendedAt0200 [0x02]).pc ∈ unknownBytes ∧
    extended (extendedAt0200 [0x02]) = false := by decide

theorem witness_HaltChangesOnlyIR : State.reset.load State.reset.pc = 0x00 := by decide

theorem witness_HaltedAndErrorRepeat :
    (stepPort (at0200 [0x00])).result ≠ .ok ∧ (stepPort (at0200 [0xFF])).result ≠ .ok := by decide

theorem inv_at0200 (bytes : List Byte) (h : (at0200 bytes).mem.wf = true)
    (hp : (at0200 bytes).p = 0x30) (hd : (at0200 bytes).diagnostics = []) : Inv (at0200 bytes) :=
  ⟨by rw [hp]; decide, h, by rw [hd]; decide⟩

/-- PLP is the case the invariant is needed for. -/
theorem witness_InstructionsChangeOnlyWhatTheTablesName :
    Inv (at0200 [0x28]) ∧ ∃ t, exec .plp (at0200 [0x28]) = .next t :=
  ⟨inv_at0200 _ (by decide) rfl rfl, _, rfl⟩

theorem witness_OnlyStackInstructionsSignal :
    (∃ t, exec .pla State.reset = .next t) ∧ ∃ t, exec .nop State.reset = .next t :=
  ⟨⟨_, rfl⟩, ⟨_, rfl⟩⟩

theorem witness_PCAdvancesByTheLength :
    (∃ t, exec (.ldaAbs 0x1234) { State.reset with pc := 0xFFFF } = .next t) ∧
    (Instr.ldaAbs 0x1234).mnemonic ∉ [.bcc, .bcs, .beq, .bmi, .bne, .bpl, .bvc, .bvs, .jmp, .jsr,
      .rts, .rti, .brk] :=
  ⟨⟨_, rfl⟩, by decide⟩

theorem witness_WritingARegisterSetsNZ :
    (∃ t, exec .pla State.reset = .next t) ∧ .a ∈ regsWritten .pla ∧
    (∃ t, exec .dex State.reset = .next t) ∧ .x ∈ regsWritten .dex ∧
    (∃ t, exec .tay State.reset = .next t) ∧ .y ∈ regsWritten .tay :=
  ⟨⟨_, rfl⟩, by decide, ⟨_, rfl⟩, by decide, ⟨_, rfl⟩, by decide⟩

/-- P = 0x30 and P = 0x3C: D and I are 0 in one and 1 in the other. -/
theorem witness_DAndIAreReadByPHPOnly :
    (Instr.adcImm 0x01).mnemonic ≠ .php ∧ SameButDI State.reset { State.reset with p := 0x3C } := by
  refine ⟨by decide, rfl, fun k h2 h3 => ?_⟩
  by_cases h : k < 8
  · interval_cases k <;> first | rfl | contradiction
  · rw [BitVec.getLsbD_of_ge _ _ (by omega), BitVec.getLsbD_of_ge _ _ (by omega)]

theorem witness_LoadsCopyTheOperandAndSetNZ :
    (Instr.ldaIndy 0xFF).mnemonic = .lda ∧ (Instr.ldxZpy 0xFF).mnemonic = .ldx ∧
    (Instr.ldyImm 0x00).mnemonic = .ldy := by decide

theorem witness_StoresWriteTheRegisterAtTheAddress :
    State.reset.mem.wf = true ∧ (Instr.staIndx 0xFF).mnemonic = .sta ∧
    (Instr.stxZpy 0x00).mnemonic = .stx ∧ (Instr.styAbs 0xFFFF).mnemonic = .sty := by decide

theorem witness_ADCAddsWithCarry : (Instr.adcImm 0xFF).mnemonic = .adc := by decide

theorem witness_SBCAddsTheComplement : (Instr.sbcAbsx 0xFFFF).mnemonic = .sbc := by decide

theorem witness_ComparesSetNZCOnly :
    (Instr.cmpImm 0x00).mnemonic = .cmp ∧ (Instr.cpxZp 0xFF).mnemonic = .cpx ∧
    (Instr.cpyAbs 0x0000).mnemonic = .cpy := by decide

theorem witness_INCAndDECChangeTheByteByOne :
    (at0200 [0xFE, 0xFF, 0xFF]).mem.wf = true ∧ (Instr.incAbsx 0xFFFF).mnemonic = .inc ∧
    (Instr.decZp 0x00).mnemonic = .dec := by decide

theorem witness_LogicWorksBitByBit :
    (Instr.andImm 0x00).mnemonic = .and ∧ (Instr.oraIndy 0xFF).mnemonic = .ora ∧
    (Instr.eorAbs 0xFFFF).mnemonic = .eor := by decide

theorem witness_BITTestsTheOperand :
    (Instr.bitZp 0x00).mnemonic = .bit ∧ (Instr.bitAbs 0xFFFF).mnemonic = .bit := by decide

/-- Both kinds of form: the accumulator, and an address. -/
theorem witness_ShiftsMoveOneBitIntoCarry :
    (at0200 [0x0A]).mem.wf = true ∧ Instr.aslAcc.mnemonic = .asl ∧ Instr.aslAcc.operand = .acc ∧
    (Instr.lsrAbsx 0xFFFF).mnemonic = .lsr ∧
    operandAddr (at0200 [0x0A]) (Instr.lsrAbsx 0xFFFF).operand = some 0xFFFF := by decide

theorem witness_RotatesGoThroughCarry :
    (at0200 [0x2A]).mem.wf = true ∧ Instr.rorAcc.mnemonic = .ror ∧ Instr.rorAcc.operand = .acc ∧
    (Instr.rolZp 0x00).mnemonic = .rol ∧
    operandAddr (at0200 [0x2A]) (Instr.rolZp 0x00).operand = some 0x0000 := by decide

/-- The farthest offsets, taken and not taken. -/
theorem witness_BranchesAddTheOffsetWhenTaken :
    (Instr.bcc 0x7F).operand = .rel 0x7F ∧ branchTaken State.reset .bcc = some true ∧
    (Instr.bvs 0x80).operand = .rel 0x80 ∧ branchTaken State.reset .bvs = some false := by decide

/-- SP at both ends of the window. -/
theorem witness_PHAAndPHPPush :
    { State.reset with sp := 0x00 }.mem.wf = true ∧ State.reset.mem.wf = true := by decide

theorem witness_JSRPushesTheAddressOfItsLastByte :
    { at0200 [0x20, 0x00, 0x03] with sp := 0x01 }.mem.wf = true := by decide

theorem witness_FlagInstructionsWriteOneBit :
    ((Instr.sed, Flag.d, true) : Instr × Flag × Bool) ∈
      [(.clc, .c, false), (.sec, .c, true), (.cli, .i, false), (.sei, .i, true),
        (.clv, .v, false), (.cld, .d, false), (.sed, .d, true)] := by decide

theorem witness_NOPOnlyAdvancesPC : (at0200 [0xEA]).load (at0200 [0xEA]).pc = 0xEA := by decide

theorem witness_ResolverReadsXYMemoryAndConfigOnly :
    let s := at0200 [0xA9]
    let t := { s with a := 0x80, p := 0xFF, sp := 0x00, pc := 0x0000 }
    t.x = s.x ∧ t.y = s.y ∧ t.mem = s.mem ∧ t.cfg = s.cfg := by decide

/-- SP = 0x00, where the push wraps. -/
theorem witness_PullAfterPushGivesTheByteBack :
    let s := { State.reset with sp := 0x00 }
    s.mem.wf = true ∧ ∃ t u, exec .pha s = .next t ∧ exec .pla t = .next u :=
  ⟨by decide, _, _, rfl, rfl⟩

theorem witness_PHPThenPLPRestoresP :
    Inv (at0200 []) ∧ ∃ t u, exec .php (at0200 []) = .next t ∧ exec .plp t = .next u :=
  ⟨inv_at0200 _ (by decide) rfl rfl, _, _, rfl, rfl⟩

/-- The call at 0xFFFD of S9, whose return address wraps, and a state with RTS at its PC that has kept
the two stack bytes. -/
theorem witness_JSRThenRTSResumesAfterTheCall :
    let s := cpu 0x00 0x00 0x00 0x30 0xFF 0xFFFD [(0xFFFD, 0x20), (0xFFFF, 0x40), (0x4000, 0x60)]
    s.mem.wf = true ∧
    decode [s.load s.pc, s.load (s.pc + 1), s.load (s.pc + 2)] = .ok (.jsr 0x4000, []) ∧
    ∃ t, step s = .next t ∧ t.load t.pc = 0x60 :=
  ⟨by decide, rfl, _, rfl, by decide⟩

theorem witness_LoadAfterStoreGivesTheByte : (at0200 [0x01, 0x02]).mem.wf = true := by decide

theorem witness_CanonicalMemoriesWithEqualBytesAreEqual :
    let m : Memory := [(0x0000, 0x01), (0xFFFF, 0xFF)]
    m.wf = true ∧ ∀ a : Addr, Memory.read m a.toNat = Memory.read m a.toNat :=
  ⟨by decide, fun _ => rfl⟩

/-- The stored byte is the one at 0x0203, the next opcode. -/
theorem witness_StoreIsSeenByTheNextFetch :
    let s := at0200 [0x8D, 0x03, 0x02]
    s.mem.wf = true ∧
    decode [s.load s.pc, s.load (s.pc + 1), s.load (s.pc + 2)] = .ok (.staAbs (s.pc + 3), []) :=
  ⟨by decide, rfl⟩

theorem witness_ResetMeetsTheInvariant : (at0200 [0xA9, 0x05, 0xAA]).mem.wf = true := by decide

theorem witness_EveryStepKeepsTheInvariant :
    Inv (at0200 [0x28]) ∧ ∃ t, step (at0200 [0x28]) = .next t :=
  ⟨inv_at0200 _ (by decide) rfl rfl, _, rfl⟩

theorem witness_HostMovesKeepTheInvariant : Inv (at0200 [0xFF]) :=
  inv_at0200 _ (by decide) rfl rfl

/-- HALTED after no `Ok` step and after one, ERROR after none and after one, and RUNNING. -/
theorem witness_RunsEndAtAHaltByteOrAnUnknownOpcode :
    (runLoop 1 (at0200 [0x00])).runState = .halted ∧
    (runLoop 2 (at0200 [0xEA, 0x00])).runState = .halted ∧
    (runLoop 1 (at0200 [0x6C])).runState = .error ∧
    (runLoop 2 (at0200 [0xEA, 0xFF])).runState = .error ∧
    (runLoop 2 (at0200 [0x4C, 0x00, 0x02])).runState = .running := by decide

theorem witness_ExtensionJumpsIndirect :
    let s := extendedAt0200 [0x6C, 0xFF, 0x03]
    s.cfg.extJmpIndirect = true ∧ s.load s.pc = 0x6C := by decide

end Sys2Proof.Tests
end

section
/-! SUPPORT. More laws of the named operations: registers by name, the signals of pushes and
pulls in a row, the hardwired bits, and states that differ in D and I only. -/

namespace Sys2Proof.Machine

/-! ## A register by its name -/

/-- Writes the register of that name. -/
def State.setReg (s : State) : Reg → Byte → State
  | .a, v => s.setA v
  | .x, v => s.setX v
  | .y, v => s.setY v
  | .sp, v => s.setSP v
  | .ir, v => s.setIR v

namespace State

@[simp] theorem reg_setReg_same (s : State) (r : Reg) (v : Byte) : (s.setReg r v).reg r = v := by
  cases r <;> rfl

theorem reg_setReg_other (s : State) {q r : Reg} (h : q ≠ r) (v : Byte) :
    (s.setReg r v).reg q = s.reg q := by
  cases r <;> cases q <;> first | rfl | exact absurd rfl h

@[simp] theorem setReg_p (s : State) (r : Reg) (v : Byte) : (s.setReg r v).p = s.p := by
  cases r <;> rfl
@[simp] theorem setReg_pc (s : State) (r : Reg) (v : Byte) : (s.setReg r v).pc = s.pc := by
  cases r <;> rfl
@[simp] theorem setReg_mem (s : State) (r : Reg) (v : Byte) : (s.setReg r v).mem = s.mem := by
  cases r <;> rfl
@[simp] theorem setReg_cfg (s : State) (r : Reg) (v : Byte) : (s.setReg r v).cfg = s.cfg := by
  cases r <;> rfl
@[simp] theorem setReg_diagnostics (s : State) (r : Reg) (v : Byte) :
    (s.setReg r v).diagnostics = s.diagnostics := by
  cases r <;> rfl

@[simp] theorem reg_setNZ (s : State) (v : Byte) (r : Reg) : (s.setNZ v).reg r = s.reg r := by
  cases r <;> rfl

end State

theorem Frame.setReg (s : State) (r : Reg) (v : Byte) : Frame [r] [] [] s (s.setReg r v) where
  regs _ hq := s.reg_setReg_other (by simpa using hq) v
  bits _ _ := by rw [State.setReg_p]
  bytes a _ := State.load_congr (s.setReg_mem r v) a
  cfg := s.setReg_cfg r v

/-! ## The hardwired bits of P -/

/-- Whatever flags a frame names, bits 5 and 4 stay 1: no flag is one of them (R16). -/
theorem Frame.hardwired {r : List Reg} {f : List Flag} {m : List Addr} {s t : State}
    (h : Frame r f m s t) (hs : s.p &&& 0x30#8 = 0x30#8) : t.p &&& 0x30#8 = 0x30#8 := by
  refine Eq.trans (BitVec.eq_of_getLsbD_eq fun k _ => ?_) hs
  rw [BitVec.getLsbD_and, BitVec.getLsbD_and]
  by_cases hk : ∀ g : Flag, g.index ≠ k
  · rw [h.bits k fun g _ => hk g]
  · obtain ⟨g, rfl⟩ := by simpa using hk
    have : (0x30#8).getLsbD g.index = false := by cases g <;> rfl
    rw [this, Bool.and_false, Bool.and_false]

/-- A write of the whole of P leaves them 1, whatever P was (R16, R193). -/
theorem State.hardwired_setStatus (s : State) (v : Byte) :
    (s.setStatus v).p &&& 0x30#8 = 0x30#8 := by
  rw [State.setStatus_p, BitVec.and_comm]
  apply BitVec.eq_of_getLsbD_eq
  intro k _
  simp only [BitVec.getLsbD_and, BitVec.getLsbD_or]
  cases (0x30#8).getLsbD k <;> simp

/-! ## Pushes and pulls -/

theorem push_diagnostics (v : Byte) (s : State) :
    (push v s).diagnostics = s.diagnostics ++ pushSignals s 1 := by
  simp [push_eq, pushSignals, ← BitVec.toNat_inj]

theorem pull_diagnostics (s : State) :
    (pull s).2.diagnostics = s.diagnostics ++ pullSignals s 1 := by
  have : s.sp = 0xFF#8 ↔ s.sp.toNat + 1 > 255 := by
    have := s.sp.isLt
    rw [← BitVec.toNat_inj]
    simp
    omega
  simp [pull_eq, pullSignals, this]

/-- A push and `k` more signal as `k + 1` pushes do: SP comes past 0x00 once. -/
theorem pushSignals_succ (v : Byte) (s : State) {k : Nat} (hk : k < 256) :
    pushSignals s 1 ++ pushSignals (push v s) k = pushSignals s (k + 1) := by
  have hsp : (push v s).sp.toNat = (s.sp.toNat + 255) % 256 := by
    rw [push_eq]
    bv_omega
  have := s.sp.isLt
  unfold pushSignals
  rw [hsp]
  by_cases h : s.sp.toNat = 0
  · rw [if_pos (by omega), if_neg (by omega), if_pos (by omega), List.append_nil]
  · have : (s.sp.toNat + 255) % 256 < k ↔ s.sp.toNat < k + 1 := by omega
    rw [if_neg (by omega), List.nil_append]
    simp only [this]

/-- A pull and `k` more signal as `k + 1` pulls do: SP comes past 0xFF once. -/
theorem pullSignals_succ (s : State) {k : Nat} (hk : k < 256) :
    pullSignals s 1 ++ pullSignals (pull s).2 k = pullSignals s (k + 1) := by
  have hsp : (pull s).2.sp.toNat = (s.sp.toNat + 1) % 256 := by
    rw [pull_eq]
    bv_omega
  have := s.sp.isLt
  unfold pullSignals
  rw [hsp]
  by_cases h : s.sp.toNat = 255
  · rw [if_pos (by omega), if_neg (by omega), if_pos (by omega), List.append_nil]
  · have : (s.sp.toNat + 1) % 256 + k > 255 ↔ s.sp.toNat + (k + 1) > 255 := by omega
    rw [if_neg (by omega), List.nil_append]
    simp only [this]

/-- The signals of pulls depend on SP alone. -/
theorem pullSignals_setStatus (s : State) (v : Byte) (k : Nat) :
    pullSignals (s.setStatus v) k = pullSignals s k := rfl

theorem pushSignals_length (s : State) (k : Nat) : (pushSignals s k).length ≤ 1 := by
  unfold pushSignals
  split <;> simp

theorem pullSignals_length (s : State) (k : Nat) : (pullSignals s k).length ≤ 1 := by
  unfold pullSignals
  split <;> simp

/-! ## The length of an instruction -/

/-- An instruction has as many bytes as its mode says (R51, R56). -/
theorem encode_length (i : Instr) : (encode i).length = i.length := by
  unfold encode Instr.length
  cases i.operand with
  | mem m => cases m <;> rfl
  | imm | rel | acc | imp => rfl

/-! ## States that differ in D and I only -/

namespace SameButDI

variable {s s' : State}

/-- An operation that passes a change of P through and leaves P alone keeps the relation. -/
theorem map (h : SameButDI s s') {F : State → State}
    (hF : ∀ s p, F (s.setP p) = (F s).setP p) (hp : ∀ s, (F s).p = s.p) :
    SameButDI (F s) (F s') where
  rest := by
    rw [hp, ← State.setP, ← hF]
    exact congrArg F h.rest
  bits k h2 h3 := by rw [hp, hp, h.bits k h2 h3]

theorem a (h : SameButDI s s') : s'.a = s.a := by rw [h.rest]
theorem x (h : SameButDI s s') : s'.x = s.x := by rw [h.rest]
theorem y (h : SameButDI s s') : s'.y = s.y := by rw [h.rest]
theorem sp (h : SameButDI s s') : s'.sp = s.sp := by rw [h.rest]
theorem pc (h : SameButDI s s') : s'.pc = s.pc := by rw [h.rest]
theorem cfg (h : SameButDI s s') : s'.cfg = s.cfg := by rw [h.rest]

theorem load (h : SameButDI s s') (a : Addr) : s'.load a = s.load a :=
  State.load_congr (by rw [h.rest]) a

/-- The flags but D and I are the same. -/
theorem flag (h : SameButDI s s') {f : Flag} (hd : f ≠ .d) (hi : f ≠ .i) :
    s'.flag f = s.flag f :=
  h.bits f.index (fun e => hi (Flag.index_inj e)) (fun e => hd (Flag.index_inj e))

theorem effAddr (h : SameButDI s s') (m : MemOperand) :
    Machine.effAddr s' m = Machine.effAddr s m := by
  rw [h.rest]
  cases m <;> rfl

theorem sourceValue (h : SameButDI s s') (o : Source) :
    Machine.sourceValue s' o = Machine.sourceValue s o := by
  cases o with
  | imm v => rfl
  | mem m => simp only [Machine.sourceValue, h.effAddr, h.load]

theorem advance (h : SameButDI s s') (n : Nat) : SameButDI (s.advance n) (s'.advance n) :=
  h.map (F := fun s => s.advance n) (fun _ _ => rfl) fun _ => rfl

theorem setPC (h : SameButDI s s') (v : Addr) : SameButDI (s.setPC v) (s'.setPC v) :=
  h.map (F := fun s => s.setPC v) (fun _ _ => rfl) fun _ => rfl

theorem setReg (h : SameButDI s s') (r : Reg) (v : Byte) :
    SameButDI (s.setReg r v) (s'.setReg r v) :=
  h.map (F := fun s => s.setReg r v) (fun _ _ => by cases r <;> rfl) fun s => s.setReg_p r v

theorem store (h : SameButDI s s') (a : Addr) (v : Byte) :
    SameButDI (s.store a v) (s'.store a v) :=
  h.map (F := fun s => s.store a v) (fun _ _ => rfl) fun _ => rfl

theorem setResult (h : SameButDI s s') (r : StepResult) :
    SameButDI (s.setResult r) (s'.setResult r) :=
  h.map (F := fun s => s.setResult r) (fun _ _ => rfl) fun _ => rfl

theorem push (h : SameButDI s s') (v : Byte) : SameButDI (Machine.push v s) (Machine.push v s') :=
  h.map (fun _ _ => by rw [push_eq, push_eq]; rfl) fun _ => by rw [push_eq]

theorem pull (h : SameButDI s s') : SameButDI (Machine.pull s).2 (Machine.pull s').2 :=
  h.map (F := fun s => (Machine.pull s).2)
    (fun _ _ => by rw [pull_eq, pull_eq]; rfl) fun _ => by rw [pull_eq]

theorem pull_byte (h : SameButDI s s') : (Machine.pull s').1 = (Machine.pull s).1 := by
  rw [pull_eq, pull_eq]
  simp only [h.load, h.cfg, h.sp]

theorem setFlag (h : SameButDI s s') (f : Flag) (b : Bool) :
    SameButDI (s.setFlag f b) (s'.setFlag f b) where
  rest := by
    rw [h.rest]
    rfl
  bits k h2 h3 := by rw [State.setFlag_bit, State.setFlag_bit, h.bits k h2 h3]

theorem setNZ (h : SameButDI s s') (v : Byte) : SameButDI (s.setNZ v) (s'.setNZ v) :=
  (h.setFlag .n v.msb).setFlag .z _

/-- A write of the whole of P leaves no difference at all. -/
theorem setStatus (h : SameButDI s s') (v : Byte) : SameButDI (s.setStatus v) (s'.setStatus v) where
  rest := by
    rw [h.rest]
    rfl
  bits _ _ _ := rfl

end SameButDI

/-- What is read of the state is the same whatever D and I are. -/
def BlindToDI {α : Type} (f : State → α) : Prop := ∀ s s', SameButDI s s' → f s' = f s

end Sys2Proof.Machine
end

section
/-! SUPPORT. Everything `exec` can do, said once: the forms a meaning takes (`Meaning`), that
every instruction has one (`exec_meaning`), and what each form keeps and changes. -/

namespace Sys2Proof.Machine

/-- The rows of the spec's tables for an instruction: the registers, flags and bytes it writes. -/
structure WritesOnly (i : Instr) (regs : List Reg) (flags : List Flag)
    (stored : State → List Addr) : Prop where
  regs : regsWritten i = regs := by rfl
  flags : flagsWritten i.mnemonic = flags := by rfl
  stored : ∀ s, storedAddrs s i = stored s := by exact fun _ => rfl

/-- The forms of the meanings: `Meaning i g` says that the map `g` of states has one of them, and
that the tables name for `i` what the form writes. The values written are read from the state
before, and only the one PHP pushes may see D and I. -/
inductive Meaning : Instr → (State → State) → Prop
  /-- Loads, transfers but TXS, logic, INX, INY, DEX and DEY: a register, N and Z. -/
  | write {i : Instr} (r : Reg) (v : State → Byte) (hv : BlindToDI v) (hr : r ≠ .ir := by decide)
      (hw : WritesOnly i [r] [.n, .z] fun _ => [] := by exact {}) :
      Meaning i fun s => ((s.advance i.length).setReg r (v s)).setNZ (v s)
  /-- ADC and SBC. -/
  | sum {i : Instr} (r : State → Byte × Bool × Bool) (hv : BlindToDI r)
      (hw : WritesOnly i [.a] [.n, .v, .z, .c] fun _ => [] := by exact {}) :
      Meaning i fun s => (s.advance i.length).setSum (r s)
  /-- The compares. -/
  | compare {i : Instr} (r : State → Bool × Bool × Bool) (hv : BlindToDI r)
      (hw : WritesOnly i [] [.n, .z, .c] fun _ => [] := by exact {}) :
      Meaning i fun s => (s.advance i.length).setCompare (r s)
  /-- BIT. -/
  | bit {i : Instr} (z n v : State → Bool) (hz : BlindToDI z) (hn : BlindToDI n)
      (hv : BlindToDI v)
      (hw : WritesOnly i [] [.n, .v, .z] fun _ => [] := by exact {}) :
      Meaning i fun s =>
        (((s.advance i.length).setFlag .z (z s)).setFlag .n (n s)).setFlag .v (v s)
  /-- Shifts and rotates of A. -/
  | shiftA {i : Instr} (r : State → Byte × Bool) (hv : BlindToDI r)
      (hw : WritesOnly i [.a] [.n, .z, .c] fun _ => [] := by exact {}) :
      Meaning i fun s =>
        (((s.advance i.length).setA (r s).1).setFlag .c (r s).2).setNZ (r s).1
  /-- Stores. -/
  | store {i : Instr} (m : MemOperand) (v : State → Byte) (hv : BlindToDI v)
      (hw : WritesOnly i [] [] fun s => [effAddr s m] := by exact {}) :
      Meaning i fun s => (s.advance i.length).store (effAddr s m) (v s)
  /-- INC and DEC. -/
  | modify {i : Instr} (m : MemOperand) (v : State → Byte) (hv : BlindToDI v)
      (hw : WritesOnly i [] [.n, .z] fun s => [effAddr s m] := by exact {}) :
      Meaning i fun s => ((s.advance i.length).store (effAddr s m) (v s)).setNZ (v s)
  /-- Shifts and rotates of a byte of memory. -/
  | shiftMem {i : Instr} (m : MemOperand) (r : State → Byte × Bool) (hv : BlindToDI r)
      (hw : WritesOnly i [] [.n, .z, .c] fun s => [effAddr s m] := by exact {}) :
      Meaning i fun s =>
        (((s.advance i.length).store (effAddr s m) (r s).1).setFlag .c (r s).2).setNZ (r s).1
  /-- The flag instructions. -/
  | setFlag {i : Instr} (f : Flag) (b : Bool)
      (hw : WritesOnly i [] [f] fun _ => [] := by exact {}) :
      Meaning i fun s => (s.advance i.length).setFlag f b
  /-- The branches. -/
  | branch {i : Instr} (c : State → Bool) (d : Byte) (hc : BlindToDI c)
      (hm : i.mnemonic ∈ [.bcc, .bcs, .beq, .bmi, .bne, .bpl, .bvc, .bvs] :=
        by simp [Instr.mnemonic])
      (hw : WritesOnly i [] [] fun _ => [] := by exact {}) :
      Meaning i fun s =>
        if c s then (s.advance 2).setPC ((s.advance 2).pc + sext16 d) else s.advance 2
  /-- PHA and PHP. -/
  | push {i : Instr} (v : State → Byte) (hv : i.mnemonic ≠ .php → BlindToDI v)
      (hw : WritesOnly i [.sp] [] fun s => [stackAddr s.cfg s.sp] := by exact {}) :
      Meaning i fun s => Machine.push (v s) (s.advance i.length)
  | txs : Meaning .txs fun s => (s.advance 1).setSP s.x
  | nop : Meaning .nop fun s => s.advance 1
  | pla : Meaning .pla fun s =>
      ((pull (s.advance 1)).2.setA (pull (s.advance 1)).1).setNZ (pull (s.advance 1)).1
  | plp : Meaning .plp fun s => (pull (s.advance 1)).2.setStatus (pull (s.advance 1)).1
  | jmp (w : Addr) : Meaning (.jmp w) fun s => (s.advance 3).setPC w
  | jsr (w : Addr) : Meaning (.jsr w) fun s =>
      (Machine.push (lo8 (s.advance 2).pc)
        (Machine.push (hi8 (s.advance 2).pc) (s.advance 2))).setPC w
  | rts : Meaning .rts fun s =>
      let lo := pull (s.advance 1)
      let hi := pull lo.2
      hi.2.setPC (hiLo hi.1 lo.1 + 1)
  | rti : Meaning .rti fun s =>
      let st := pull (s.advance 1)
      let lo := pull (st.2.setStatus st.1)
      let hi := pull lo.2
      hi.2.setPC (hiLo hi.1 lo.1 + if s.cfg.rtiPcIncrement then 1 else 0)
  | brk : Meaning .brk halt

/-! ## What the forms read -/

namespace BlindToDI

theorem comp {α β : Type} {f : State → α} (hf : BlindToDI f) (op : α → β) :
    BlindToDI fun s => op (f s) :=
  fun s s' h => congrArg op (hf s s' h)

theorem comp₂ {α β γ : Type} {f : State → α} {g : State → β} (op : α → β → γ)
    (hf : BlindToDI f) (hg : BlindToDI g) : BlindToDI fun s => op (f s) (g s) :=
  fun s s' h => congrArg₂ op (hf s s' h) (hg s s' h)

theorem a : BlindToDI State.a := fun _ _ h => h.a
theorem x : BlindToDI State.x := fun _ _ h => h.x
theorem y : BlindToDI State.y := fun _ _ h => h.y
theorem sp : BlindToDI State.sp := fun _ _ h => h.sp

theorem source (o : Source) : BlindToDI fun s => sourceValue s o :=
  fun _ _ h => h.sourceValue o

theorem flag {f : Flag} (hd : f ≠ .d := by decide) (hi : f ≠ .i := by decide) :
    BlindToDI fun s => s.flag f :=
  fun _ _ h => h.flag hd hi

/-- ADC and SBC read A, the operand and C. -/
theorem sum (op : Byte → Byte → Bool → Byte × Bool × Bool) (o : Source) :
    BlindToDI fun s => op s.a (sourceValue s o) (s.flag .c) :=
  comp₂ (fun r c => r c) (comp₂ op a (source o)) flag

/-- A shift or rotate reads its operand and C. -/
theorem shift (op : Byte → Bool → Byte × Bool) {m : State → Byte} (hm : BlindToDI m) :
    BlindToDI fun s => op (m s) (s.flag .c) :=
  comp₂ op hm flag

end BlindToDI

/-! ## Every instruction has a form -/

theorem exec_meaning (i : Instr) : ∃ g, Meaning i g ∧ ∀ s, exec i s = .next (g s) := by
  cases i
  case ldaImm | ldaZp | ldaZpx | ldaAbs | ldaAbsx | ldaAbsy | ldaIndx | ldaIndy =>
    exact ⟨_, .write .a _ (.source _), fun _ => rfl⟩
  case ldxImm | ldxZp | ldxZpy | ldxAbs | ldxAbsy =>
    exact ⟨_, .write .x _ (.source _), fun _ => rfl⟩
  case ldyImm | ldyZp | ldyZpx | ldyAbs | ldyAbsx =>
    exact ⟨_, .write .y _ (.source _), fun _ => rfl⟩
  case tax => exact ⟨_, .write .x _ .a, fun _ => rfl⟩
  case tay => exact ⟨_, .write .y _ .a, fun _ => rfl⟩
  case txa => exact ⟨_, .write .a _ .x, fun _ => rfl⟩
  case tya => exact ⟨_, .write .a _ .y, fun _ => rfl⟩
  case tsx => exact ⟨_, .write .x _ .sp, fun _ => rfl⟩
  case inx => exact ⟨_, .write .x _ (.comp .x (· + 1)), fun _ => rfl⟩
  case iny => exact ⟨_, .write .y _ (.comp .y (· + 1)), fun _ => rfl⟩
  case dex => exact ⟨_, .write .x _ (.comp .x (· - 1)), fun _ => rfl⟩
  case dey => exact ⟨_, .write .y _ (.comp .y (· - 1)), fun _ => rfl⟩
  case andImm | andZp | andZpx | andAbs | andAbsx | andAbsy | andIndx | andIndy =>
    exact ⟨_, .write .a _ (.comp₂ (· &&& ·) .a (.source _)), fun _ => rfl⟩
  case oraImm | oraZp | oraZpx | oraAbs | oraAbsx | oraAbsy | oraIndx | oraIndy =>
    exact ⟨_, .write .a _ (.comp₂ (· ||| ·) .a (.source _)), fun _ => rfl⟩
  case eorImm | eorZp | eorZpx | eorAbs | eorAbsx | eorAbsy | eorIndx | eorIndy =>
    exact ⟨_, .write .a _ (.comp₂ (· ^^^ ·) .a (.source _)), fun _ => rfl⟩
  case adcImm | adcZp | adcZpx | adcAbs | adcAbsx | adcAbsy | adcIndx | adcIndy =>
    exact ⟨_, .sum _ (.sum addWithCarry _), fun _ => rfl⟩
  case sbcImm | sbcZp | sbcZpx | sbcAbs | sbcAbsx | sbcAbsy | sbcIndx | sbcIndy =>
    exact ⟨_, .sum _ (.sum subWithBorrow _), fun _ => rfl⟩
  case cmpImm | cmpZp | cmpZpx | cmpAbs | cmpAbsx | cmpAbsy | cmpIndx | cmpIndy =>
    exact ⟨_, .compare _ (.comp₂ compareBytes .a (.source _)), fun _ => rfl⟩
  case cpxImm | cpxZp | cpxAbs =>
    exact ⟨_, .compare _ (.comp₂ compareBytes .x (.source _)), fun _ => rfl⟩
  case cpyImm | cpyZp | cpyAbs =>
    exact ⟨_, .compare _ (.comp₂ compareBytes .y (.source _)), fun _ => rfl⟩
  case bitZp | bitAbs => exact ⟨_, .bit _ _ _ (.comp₂ (· &&& · == 0x00#8) .a (.source _))
      (.comp (.source _) (·.getLsbD 7)) (.comp (.source _) (·.getLsbD 6)), fun _ => rfl⟩
  case staZp | staZpx | staAbs | staAbsx | staAbsy | staIndx | staIndy =>
    exact ⟨_, .store _ _ .a, fun _ => rfl⟩
  case stxZp | stxZpy | stxAbs => exact ⟨_, .store _ _ .x, fun _ => rfl⟩
  case styZp | styZpx | styAbs => exact ⟨_, .store _ _ .y, fun _ => rfl⟩
  case incZp | incZpx | incAbs | incAbsx =>
    exact ⟨_, .modify _ _ (.comp (.source (.mem _)) (· + 1)), fun _ => rfl⟩
  case decZp | decZpx | decAbs | decAbsx =>
    exact ⟨_, .modify _ _ (.comp (.source (.mem _)) (· - 1)), fun _ => rfl⟩
  case aslZp | aslZpx | aslAbs | aslAbsx =>
    exact ⟨_, .shiftMem _ _ (.comp (.source (.mem _)) asl), fun _ => rfl⟩
  case lsrZp | lsrZpx | lsrAbs | lsrAbsx =>
    exact ⟨_, .shiftMem _ _ (.comp (.source (.mem _)) lsr), fun _ => rfl⟩
  case rolZp | rolZpx | rolAbs | rolAbsx =>
    exact ⟨_, .shiftMem _ _ (.shift rol (.source (.mem _))), fun _ => rfl⟩
  case rorZp | rorZpx | rorAbs | rorAbsx =>
    exact ⟨_, .shiftMem _ _ (.shift ror (.source (.mem _))), fun _ => rfl⟩
  case aslAcc => exact ⟨_, .shiftA _ (.comp .a asl), fun _ => rfl⟩
  case lsrAcc => exact ⟨_, .shiftA _ (.comp .a lsr), fun _ => rfl⟩
  case rolAcc => exact ⟨_, .shiftA _ (.shift rol .a), fun _ => rfl⟩
  case rorAcc => exact ⟨_, .shiftA _ (.shift ror .a), fun _ => rfl⟩
  case clc | sec | cli | sei | clv | cld | sed => exact ⟨_, .setFlag _ _, fun _ => rfl⟩
  case bcs d | beq d | bmi d | bvs d => exact ⟨_, .branch _ d .flag, fun _ => rfl⟩
  case bcc d | bne d | bpl d | bvc d => exact ⟨_, .branch _ d (.comp .flag (!·)), fun _ => rfl⟩
  case pha => exact ⟨_, .push _ (fun _ => .a), fun _ => rfl⟩
  case php => exact ⟨_, .push State.p (absurd rfl), fun _ => rfl⟩
  case txs => exact ⟨_, .txs, fun _ => rfl⟩
  case nop => exact ⟨_, .nop, fun _ => rfl⟩
  case pla => exact ⟨_, .pla, fun _ => rfl⟩
  case plp => exact ⟨_, .plp, fun _ => rfl⟩
  case jmp w => exact ⟨_, .jmp w, fun _ => rfl⟩
  case jsr w => exact ⟨_, .jsr w, fun _ => rfl⟩
  case rts => exact ⟨_, .rts, fun _ => rfl⟩
  case rti => exact ⟨_, .rti, fun _ => rfl⟩
  case brk => exact ⟨_, .brk, fun _ => rfl⟩

end Sys2Proof.Machine
end

section
/-! SUPPORT. What each form of a meaning keeps and changes: the frame, PC, N and Z, D and I,
IR, the canonical form of memory, and the signals. -/

namespace Sys2Proof.Machine

/-! ## The frame -/

theorem Frame.setSum (s : State) (r : Byte × Bool × Bool) :
    Frame [.a] [.n, .v, .z, .c] [] s (s.setSum r) :=
  ((((Frame.setA s _).trans (.setFlag _ .c _)).trans (.setFlag _ .v _)).trans (.setNZ _ _)).mono

theorem Frame.setCompare (s : State) (r : Bool × Bool × Bool) :
    Frame [] [.n, .z, .c] [] s (s.setCompare r) :=
  ((Frame.setFlag s .n _).trans (.setFlag _ .z _)).trans (.setFlag _ .c _)

theorem Frame.halt (s : State) : Frame [] [] [] s (Machine.halt s) where
  regs q _ := by cases q <;> rfl
  bits _ _ := rfl
  bytes _ _ := rfl
  cfg := rfl

/-- The second push of two in a row stores at the offset one below SP. -/
theorem Frame.push_push (s : State) (v w : Byte) :
    Frame [.sp] [] [stackAddr s.cfg s.sp, stackAddr s.cfg (s.sp - 1)] s
      (Machine.push w (Machine.push v s)) := by
  have h := (Frame.push s v).trans (Frame.push _ w)
  rw [push_eq v s] at h ⊢
  exact h.mono

theorem WritesOnly.frame {i : Instr} {r : List Reg} {f : List Flag} {m : State → List Addr}
    (hw : WritesOnly i r f m) {s t : State} (h : Frame r f (m s) s t) :
    Frame (regsWritten i) (flagsWritten i.mnemonic) (storedAddrs s i) s t := by
  rwa [hw.regs, hw.flags, hw.stored]

namespace Meaning

variable {i : Instr} {g : State → State}

theorem frame (h : Meaning i g) {s : State} (hs : s.p &&& 0x30#8 = 0x30#8) :
    Frame (regsWritten i) (flagsWritten i.mnemonic) (storedAddrs s i) s (g s) := by
  have adv := Frame.advance s
  cases h with beta_reduce
  | write r v hv hr hw => exact hw.frame (((adv _).trans (.setReg _ r _)).trans (.setNZ _ _))
  | sum r hv hw => exact hw.frame ((adv _).trans (.setSum _ _))
  | compare r hv hw => exact hw.frame ((adv _).trans (.setCompare _ _))
  | bit z n v hz hn hv hw =>
    exact hw.frame ((((adv _).trans (.setFlag _ .z _)).trans (.setFlag _ .n _)).trans
      (.setFlag _ .v _)).mono
  | shiftA r hv hw =>
    exact hw.frame ((((adv _).trans (.setA _ _)).trans (.setFlag _ .c _)).trans (.setNZ _ _)).mono
  | store m v hv hw => exact hw.frame ((adv _).trans (.store _ _ _))
  | modify m v hv hw => exact hw.frame (((adv _).trans (.store _ _ _)).trans (.setNZ _ _))
  | shiftMem m r hv hw =>
    exact hw.frame
      ((((adv _).trans (.store _ _ _)).trans (.setFlag _ .c _)).trans (.setNZ _ _)).mono
  | setFlag f b hw => exact hw.frame ((adv _).trans (.setFlag _ f b))
  | branch c d hc hm hw =>
    split
    · exact hw.frame ((adv 2).trans (.setPC _ _))
    · exact hw.frame (adv 2)
  | push v hv hw => exact hw.frame ((adv _).trans (.push (s.advance _) _))
  | txs => exact (adv 1).trans (.setSP _ _)
  | nop => exact adv 1
  | pla =>
    have hw : WritesOnly .pla [.a, .sp] [.n, .z] fun _ => [] := {}
    exact hw.frame ((((adv 1).trans (.pull _)).trans (.setA _ _)).trans (.setNZ _ _)).mono
  | plp =>
    have hp := (adv 1).trans (.pull _)
    exact hp.trans (.setStatus (hp.hardwired hs) _)
  | jmp w => exact (adv 3).trans (.setPC _ w)
  | jsr w => exact ((adv 2).trans (.push_push _ _ _)).trans (.setPC _ w)
  | rts =>
    have hw : WritesOnly .rts [.sp] [] fun _ => [] := {}
    exact hw.frame ((((adv 1).trans (.pull _)).trans (.pull _)).trans (.setPC _ _)).mono
  | rti =>
    have hp := (adv 1).trans (.pull _)
    have hp' := hp.trans (.setStatus (hp.hardwired hs) (pull (s.advance 1)).1)
    have hw : WritesOnly .rti [.sp] [.n, .v, .d, .i, .z, .c] fun _ => [] := {}
    exact hw.frame (((hp'.trans (.pull _)).trans (.pull _)).trans (.setPC _ _)).mono
  | brk => exact .halt s

/-! ## PC, N and Z -/

theorem pc (h : Meaning i g)
    (hm : i.mnemonic ∉
      [.bcc, .bcs, .beq, .bmi, .bne, .bpl, .bvc, .bvs, .jmp, .jsr, .rts, .rti, .brk])
    (s : State) : (g s).pc = s.pc + BitVec.ofNat 16 i.length := by
  cases h with beta_reduce
  | write | sum | compare | bit | shiftA | store | modify | shiftMem | setFlag =>
    simp [State.setSum, State.setCompare]
  | push => simp [push_eq]
  | pla | plp => rw [pull_eq]; rfl
  | txs | nop => rfl
  | branch _ _ _ hb => exact absurd (List.mem_append_left _ hb) hm
  | jmp | jsr | rts | rti | brk => simp [Instr.mnemonic] at hm

/-- Of a register that an instruction writes, N and Z are the new value's, but for SP. -/
theorem setsNZ (h : Meaning i g) {r : Reg} (hr : r ∈ regsWritten i) (hsp : r ≠ .sp) (s : State) :
    SetsNZ ((g s).reg r) (g s) := by
  cases h with beta_reduce
  | write q v hv hq hw =>
    obtain rfl : r = q := by simpa [hw.regs] using hr
    rw [State.reg_setNZ, State.reg_setReg_same]
    exact setsNZ_setNZ _ _
  | sum _ _ hw | shiftA _ _ hw =>
    obtain rfl : r = .a := by simpa [hw.regs] using hr
    exact setsNZ_setNZ _ _
  | pla =>
    obtain rfl : r = .a := by simpa [regsWritten, Instr.mnemonic, hsp] using hr
    exact setsNZ_setNZ _ _
  | push _ _ hw => exact absurd (by simpa [hw.regs] using hr) hsp
  | txs | plp | jsr | rts | rti =>
    exact absurd (by simpa [regsWritten, Instr.mnemonic] using hr) hsp
  | compare _ _ hw | bit _ _ _ _ _ _ hw | store _ _ _ hw | modify _ _ _ hw
  | shiftMem _ _ _ hw | setFlag _ _ hw | branch _ _ _ _ hw => simp [hw.regs] at hr
  | nop | jmp | brk => simp [regsWritten, Instr.mnemonic] at hr

/-! ## D and I -/

theorem sameButDI (h : Meaning i g) (hi : i.mnemonic ≠ .php) {s s' : State} (e : SameButDI s s') :
    SameButDI (g s) (g s') := by
  cases h with beta_reduce
  | write r v hv =>
    rw [hv s s' e]
    exact ((e.advance _).setReg _ _).setNZ _
  | sum r hv =>
    rw [hv s s' e]
    exact ((((e.advance _).setReg .a _).setFlag _ _).setFlag _ _).setNZ _
  | compare r hv =>
    rw [hv s s' e]
    exact (((e.advance _).setFlag _ _).setFlag _ _).setFlag _ _
  | bit z n v hz hn hv =>
    rw [hz s s' e, hn s s' e, hv s s' e]
    exact (((e.advance _).setFlag _ _).setFlag _ _).setFlag _ _
  | shiftA r hv =>
    rw [hv s s' e]
    exact (((e.advance _).setReg .a _).setFlag _ _).setNZ _
  | store m v hv =>
    rw [hv s s' e, e.effAddr]
    exact (e.advance _).store _ _
  | modify m v hv =>
    rw [hv s s' e, e.effAddr]
    exact ((e.advance _).store _ _).setNZ _
  | shiftMem m r hv =>
    rw [hv s s' e, e.effAddr]
    exact (((e.advance _).store _ _).setFlag _ _).setNZ _
  | setFlag f b => exact (e.advance _).setFlag f b
  | branch c d hc =>
    rw [hc s s' e, (e.advance 2).pc]
    split
    · exact (e.advance 2).setPC _
    · exact e.advance 2
  | push v hv =>
    rw [hv hi s s' e]
    exact (e.advance _).push _
  | txs =>
    rw [e.x]
    exact (e.advance 1).setReg .sp _
  | nop => exact e.advance 1
  | pla =>
    rw [(e.advance 1).pull_byte]
    exact ((e.advance 1).pull.setReg .a _).setNZ _
  | plp =>
    rw [(e.advance 1).pull_byte]
    exact (e.advance 1).pull.setStatus _
  | jmp w => exact (e.advance 3).setPC w
  | jsr w =>
    rw [(e.advance 2).pc]
    exact (((e.advance 2).push _).push _).setPC w
  | rts =>
    have lo := e.advance 1
    dsimp only
    rw [lo.pull_byte, lo.pull.pull_byte]
    exact lo.pull.pull.setPC _
  | rti =>
    have st := e.advance 1
    have lo := st.pull.setStatus (pull (s.advance 1)).1
    dsimp only
    rw [st.pull_byte, lo.pull_byte, lo.pull.pull_byte, e.cfg]
    exact lo.pull.pull.setPC _
  | brk => exact e.setResult _

/-! ## IR, memory and the signals -/

theorem ir (h : Meaning i g) (s : State) : (g s).ir = s.ir := by
  cases h with beta_reduce
  | write r v _ hr => exact State.reg_setReg_other _ hr.symm _
  | sum | compare | bit | shiftA | store | modify | shiftMem | setFlag | txs | nop | jmp | brk =>
    rfl
  | branch => split <;> rfl
  | push | jsr => simp [push_eq]
  | pla | plp | rts | rti => simp [pull_eq]

theorem wf (h : Meaning i g) {s : State} (hs : s.mem.wf = true) : (g s).mem.wf = true := by
  cases h with beta_reduce
  | write => simpa using hs
  | sum | compare | bit | shiftA | setFlag | txs | nop | jmp | brk => exact hs
  | branch => split <;> exact hs
  | store | modify | shiftMem => exact Memory.wf_write hs (BitVec.isLt _) _
  | push => exact wf_push (s := s.advance _) hs _
  | jsr => exact wf_push (wf_push (s := s.advance 2) hs _) _
  | pla | plp | rts | rti => simpa [pull_mem] using hs

/-- What a meaning adds to the signals is at most one. -/
theorem diagnostics (h : Meaning i g) (s : State) :
    ∃ d, (g s).diagnostics = s.diagnostics ++ d ∧ d.length ≤ 1 := by
  have quiet : s.diagnostics = s.diagnostics ++ [] ∧ ([] : List Diagnostic).length ≤ 1 := by simp
  cases h with beta_reduce
  | write => exact ⟨[], by simp⟩
  | sum | compare | bit | shiftA | store | modify | shiftMem | setFlag | txs | nop | jmp | brk =>
    exact ⟨[], quiet⟩
  | branch => exact ⟨[], by split <;> exact quiet⟩
  | push => exact ⟨_, push_diagnostics _ _, pushSignals_length _ _⟩
  | jsr =>
    refine ⟨pushSignals (s.advance 2) 2, ?_, pushSignals_length _ _⟩
    rw [State.setPC_diagnostics, push_diagnostics, push_diagnostics, List.append_assoc,
      pushSignals_succ _ _ (by decide), State.advance_diagnostics]
  | pla | plp => exact ⟨_, pull_diagnostics _, pullSignals_length _ _⟩
  | rts =>
    refine ⟨pullSignals (s.advance 1) 2, ?_, pullSignals_length _ _⟩
    rw [State.setPC_diagnostics, pull_diagnostics, pull_diagnostics, List.append_assoc,
      pullSignals_succ _ (by decide), State.advance_diagnostics]
  | rti =>
    refine ⟨pullSignals (s.advance 1) 3, ?_, pullSignals_length _ _⟩
    rw [State.setPC_diagnostics, pull_diagnostics, pull_diagnostics, State.setStatus_diagnostics,
      pull_diagnostics, List.append_assoc, List.append_assoc, pullSignals_succ _ (by decide),
      pullSignals_setStatus, pullSignals_succ _ (by decide), State.advance_diagnostics]

theorem inv (h : Meaning i g) {s : State} (hs : Inv s) (hd : s.diagnostics = []) : Inv (g s) where
  hardwired := (h.frame hs.hardwired).hardwired hs.hardwired
  canonical := h.wf hs.canonical
  oneSignal := by
    obtain ⟨d, he, hl⟩ := h.diagnostics s
    rwa [he, hd, List.nil_append]

end Meaning

end Sys2Proof.Machine
end

section
/-! PROOFS. The statements about the state: spec/10_state.md with the rules of the other files
that its registers, its invariant and its stack window rest on. -/

namespace Sys2Proof.Machine

/-- The next state that `exec` answers is that of the instruction's meaning. -/
theorem meaning_of_exec {i : Instr} {s t : State} (h : exec i s = .next t) :
    ∃ g, Meaning i g ∧ t = g s := by
  obtain ⟨g, hg, hexec⟩ := exec_meaning i
  exact ⟨g, hg, Host.Outcome.next.inj (h.symm.trans (hexec s))⟩

/-! ## The step port -/

theorem stepPort_of_next {s t : State} (h : step s = .next t) : stepPort s = t := by
  rw [stepPort, h]

/-- Whatever the step, its port answers the state of a meaning, of the extension's jump, or of
`UnknownOpcode`. -/
theorem stepPort_cases (s : State) :
    (∃ i g, Meaning i g ∧ stepPort s = g (fetch s)) ∨
    (∃ ptr, stepPort s = jmpIndirect ptr (fetch s)) ∨ stepPort s = unknownState s := by
  rcases step_cases s with ⟨i, _, _, h⟩ | ⟨_, _, h⟩ | ⟨_, _, h⟩
  · obtain ⟨g, hg, hexec⟩ := exec_meaning i
    exact .inl ⟨i, g, hg, stepPort_of_next (h.trans (hexec _))⟩
  · exact .inr (.inl ⟨_, stepPort_of_next h⟩)
  · exact .inr (.inr (by rw [stepPort, h]))

/-- What a step does, its answer included, is decided by the fetched state: it sees no IR and no
output of the step before. -/
theorem stepPort_congr {s s' : State} (hd : decodeAtPC s' = decodeAtPC s) (hf : fetch s' = fetch s)
    (hu : unknownState s' = unknownState s) : stepPort s' = stepPort s := by
  have hstep : step s' = step s := by rw [step, step, hd, hf]
  rcases step_cases s with ⟨i, _, _, h⟩ | ⟨_, _, h⟩ | ⟨_, _, h⟩
  · obtain ⟨g, _, hexec⟩ := exec_meaning i
    have h := h.trans (hexec _)
    rw [stepPort_of_next h, stepPort_of_next (hstep.trans h)]
  · rw [stepPort_of_next h, stepPort_of_next (hstep.trans h)]
  · rw [stepPort, stepPort, hstep, h]
    exact hu

/-! ## The invariant -/

theorem Inv.fetch {s : State} (h : Inv s) : Inv (fetch s) where
  hardwired := h.hardwired
  canonical := h.canonical
  oneSignal := Nat.zero_le 1

theorem Inv.launch (cfg : Cfg) {mem : Memory} (h : mem.wf = true) : Inv (State.launch cfg mem) where
  hardwired := BitVec.and_self
  canonical := h
  oneSignal := Nat.zero_le 1

/-- The state after a step, whatever its result, meets the invariant and has the configuration of
before. -/
theorem Inv.stepPort {s : State} (h : Inv s) :
    Inv (stepPort s) ∧ (Machine.stepPort s).cfg = s.cfg := by
  rcases stepPort_cases s with ⟨i, g, hg, e⟩ | ⟨ptr, e⟩ | e <;> rw [e]
  · exact ⟨hg.inv h.fetch rfl, (hg.frame h.fetch.hardwired).cfg⟩
  · exact ⟨⟨h.hardwired, h.canonical, Nat.zero_le 1⟩, rfl⟩
  · exact ⟨⟨h.hardwired, h.canonical, Nat.zero_le 1⟩, rfl⟩

/-- Settles O56: every form of a meaning keeps the hardwired bits by its frame, canonical memory by
the rule for a write, and adds one signal at most to the none that the fetch leaves. -/
theorem everyStepKeepsTheInvariant : Obligations.EveryStepKeepsTheInvariant := by
  intro s h
  obtain ⟨hinv, hcfg⟩ := h.stepPort
  refine ⟨hinv, hcfg, fun t ht => ?_⟩
  obtain rfl := stepPort_of_next ht
  exact ⟨hinv, rfl⟩

/-- Settles O57, by the moves: the memory move is a store, the move of P a write of the whole of P,
the reset a launch, and the others touch nothing that the invariant speaks of. -/
theorem hostMovesKeepTheInvariant : Obligations.HostMovesKeepTheInvariant := by
  intro s mv h
  cases mv with
  | reset startAddr => exact .launch _ h.canonical
  | poke addr v => exact ⟨h.hardwired, State.wf_store h.canonical addr v, h.oneSignal⟩
  | setP v => exact ⟨State.hardwired_setStatus s v, h.canonical, h.oneSignal⟩
  | setA | setX | setY | setSP | setPC | setIR =>
    exact ⟨h.hardwired, h.canonical, h.oneSignal⟩

/-- Settles O55: reset is a launch, and no byte is listed after it. -/
theorem resetMeetsTheInvariant : Obligations.ResetMeetsTheInvariant :=
  ⟨.launch _ rfl, fun cfg _ h => .launch cfg h⟩

/-! ## What a step and an instruction write -/

/-- Settles O8: the fetch writes IR, and no meaning, no jump of the extension and no unknown opcode
writes it again. -/
theorem everyStepWritesIR : Obligations.EveryStepWritesIR := by
  intro s
  refine ⟨?_, fun v d r => stepPort_congr rfl rfl rfl⟩
  rcases stepPort_cases s with ⟨i, g, hg, e⟩ | ⟨ptr, e⟩ | e <;> rw [e]
  · exact hg.ir _
  · rfl
  · rfl

/-- Settles O14, by the frame of each form of a meaning. -/
theorem instructionsChangeOnlyWhatTheTablesName :
    Obligations.InstructionsChangeOnlyWhatTheTablesName := by
  intro i s t h ht
  obtain ⟨g, hg, rfl⟩ := meaning_of_exec ht
  exact hg.frame h.hardwired

/-- Settles O16: every form but the control transfers and the halt advances PC by the length, which
is the number of bytes of the encoding. -/
theorem pcAdvancesByTheLength : Obligations.PCAdvancesByTheLength := by
  intro i s t ht hm
  obtain ⟨g, hg, rfl⟩ := meaning_of_exec ht
  simp only [hg.pc hm, encode_length, BitVec.toNat_add, BitVec.toNat_ofNat, Nat.add_mod_mod]

/-- Settles O17: each form that writes A, X or Y ends in `SetNZ` of the value written. -/
theorem writingARegisterSetsNZ : Obligations.WritingARegisterSetsNZ := by
  intro i s t ht
  obtain ⟨g, hg, rfl⟩ := meaning_of_exec ht
  exact ⟨fun h => hg.setsNZ h nofun s, fun h => hg.setsNZ h nofun s, fun h => hg.setsNZ h nofun s⟩

/-- Settles O18: the values that a form but PHP's writes are blind to D and I, and every operation
it is made of keeps two states different in D and I at most. -/
theorem dAndIAreReadByPHPOnly : Obligations.DAndIAreReadByPHPOnly := by
  intro i s s' hi h
  obtain ⟨g, hg, hexec⟩ := exec_meaning i
  exact ⟨g s, g s', hexec s, hexec s', hg.sameButDI hi h⟩

/-- Settles O47: STACK_BASE is the address with high byte `stackPage` and low byte 0, the stack
address the one with SP as its low byte. -/
theorem stackAddressIsBasePlusSP : Obligations.StackAddressIsBasePlusSP := by
  intro cfg sp
  have hbase : cfg.stackBase.toNat = cfg.stackPage.toNat * 256 :=
    (toNat_hiLo cfg.stackPage 0x00#8).trans (Nat.add_zero _)
  rw [hbase, stackAddr, toNat_hiLo]
  exact ⟨rfl, Nat.mul_mod_left _ _⟩

end Sys2Proof.Machine
end

section
/-! PROOFS. The statements about memory (spec/20_memory.md): loads and stores, the canonical form,
and a store that the next fetch sees. -/

namespace Sys2Proof.Machine

/-! ## Memory in canonical form -/

namespace Memory

theorem wfFrom_cons {lo b : Nat} {v : Byte} {rest : Memory} :
    wfFrom lo ((b, v) :: rest) = true ↔
      lo ≤ b ∧ b < 65536 ∧ v ≠ 0x00#8 ∧ wfFrom (b + 1) rest = true := by
  simp only [wfFrom, Bool.and_eq_true, decide_eq_true_eq, and_assoc]

@[simp] theorem read_head (b : Nat) (v : Byte) (rest : Memory) : read ((b, v) :: rest) b = v :=
  if_pos rfl

/-- The first listed address is the lowest whose byte is not 0x00. -/
theorem head_le_of_read_ne_zero {lo b a : Nat} {v : Byte} {rest : Memory}
    (h : wfFrom lo ((b, v) :: rest) = true) (ha : read ((b, v) :: rest) a ≠ 0x00#8) : b ≤ a := by
  have hb : wfFrom b ((b, v) :: rest) = true := wfFrom_cons.mpr ⟨le_rfl, (wfFrom_cons.mp h).2⟩
  exact Nat.le_of_not_lt fun hlt => ha (read_of_lt hb hlt)

/-- Without its first cell, a canonical memory reads as before but at that cell's address. -/
theorem read_tail {lo b : Nat} {v : Byte} {rest : Memory}
    (h : wfFrom lo ((b, v) :: rest) = true) (a : Nat) :
    rest.read a = if a = b then 0x00#8 else read ((b, v) :: rest) a := by
  obtain ⟨-, -, -, hrest⟩ := wfFrom_cons.mp h
  split
  · next hab => exact read_of_lt hrest (by omega)
  · next hab => exact (if_neg hab).symm

/-- A canonical memory whose bytes are all 0x00 lists none. -/
theorem eq_nil_of_read_eq_zero {lo : Nat} {m : Memory} (h : wfFrom lo m = true)
    (hz : ∀ a < 65536, m.read a = 0x00#8) : m = [] := by
  cases m with
  | nil => rfl
  | cons c rest =>
    obtain ⟨-, hb, hv, -⟩ := wfFrom_cons.mp h
    exact absurd (hz c.1 hb) (by rwa [read_head])

/-- The cells of a canonical memory are decided by its 65536 bytes: the first cell is the lowest
byte that is not 0x00, and the rest of the bytes decide the rest of the cells. -/
theorem eq_of_read_eq {lo lo' : Nat} {m m' : Memory} (h : wfFrom lo m = true)
    (h' : wfFrom lo' m' = true) (hr : ∀ a < 65536, m.read a = m'.read a) : m = m' := by
  induction m generalizing lo lo' m' with
  | nil => exact (eq_nil_of_read_eq_zero h' fun a ha => (hr a ha).symm).symm
  | cons c rest ih =>
    cases m' with
    | nil => exact eq_nil_of_read_eq_zero h hr
    | cons c' rest' =>
      obtain ⟨b, v⟩ := c
      obtain ⟨b', v'⟩ := c'
      obtain ⟨-, hb, hv, hrest⟩ := wfFrom_cons.mp h
      obtain ⟨-, hb', hv', hrest'⟩ := wfFrom_cons.mp h'
      have haddr : b = b' := Nat.le_antisymm
        (head_le_of_read_ne_zero h (by rwa [hr b' hb', read_head]))
        (head_le_of_read_ne_zero h' (by rwa [← hr b hb, read_head]))
      subst haddr
      have hbyte : v = v' := by simpa using hr b hb
      have htail : rest = rest' :=
        ih hrest hrest' fun a ha => by rw [read_tail h, read_tail h', hr a ha]
      rw [hbyte, htail]

end Memory

/-- Settles O52, by the canonical form of both from address 0 on. -/
theorem canonicalMemoriesWithEqualBytesAreEqual :
    Obligations.CanonicalMemoriesWithEqualBytesAreEqual := by
  intro m m' h h' hr
  refine Memory.eq_of_read_eq h h' fun a ha => ?_
  simpa [Nat.mod_eq_of_lt ha] using hr (BitVec.ofNat 16 a)

/-! ## Loads after stores -/

/-- Settles O51, by the rules of a load from the stored address and from another. -/
theorem loadAfterStoreGivesTheByte : Obligations.LoadAfterStoreGivesTheByte := by
  intro s a b v h
  refine ⟨?_, State.wf_store h a v⟩
  split
  · next hba => rw [hba, State.load_store_same h]
  · next hba => exact State.load_store_other s hba v

/-- A step whose bytes decode is the meaning of the instruction, in the fetched state. -/
theorem step_of_decodeAtPC {s : State} {i : Instr} {rest : List Byte}
    (h : decodeAtPC s = .ok (i, rest)) : step s = exec i (fetch s) := by
  rw [step, h]

theorem exec_staAbs (w : Addr) (s : State) :
    exec (.staAbs w) s = .next ((s.advance 3).store w s.a) := rfl

/-- Settles O53: STA absolute stores A where it leaves PC, and the next step puts into IR the byte
that a load gives there. -/
theorem storeIsSeenByTheNextFetch : Obligations.StoreIsSeenByTheNextFetch := by
  intro s rest h hdec
  let t := ((fetch s).advance 3).store (s.pc + 3) s.a
  refine ⟨t, (step_of_decodeAtPC hdec).trans (exec_staAbs _ _), rfl, ?_⟩
  calc (stepPort t).ir = t.load t.pc := (everyStepWritesIR t).1
    _ = s.a := State.load_store_same (s := (fetch s).advance 3) h (s.pc + 3) s.a

end Sys2Proof.Machine
end

section
/-! SUPPORT. More laws of the decoder and the encoder: which bytes decode, that the opcode map agrees
with the encoding entry by entry, and that a mode and the bytes after the opcode decide the operand. -/

namespace Sys2Proof

/-! ## Which bytes decode -/

/-- Bytes decode to `i` when the first has an entry that makes `i` from the operand bytes after
it. -/
theorem decode_eq_ok_iff {bytes rest : List Byte} {i : Instr} :
    decode bytes = .ok (i, rest) ↔
      ∃ op f bs, decodeOpcode op = some f ∧ f.Makes i bs ∧ bytes = op :: (bs ++ rest) := by
  constructor
  · intro h
    match bytes with
    | [] => cases h
    | op :: tail =>
      cases hop : decodeOpcode op with
      | none => rw [decode_of_none hop] at h; cases h
      | some f =>
        cases f with
        | f1 j =>
          rw [decode_of_f1 hop] at h
          cases h
          exact ⟨op, _, [], hop, ⟨rfl, rfl⟩, rfl⟩
        | f2 mk =>
          match tail with
          | [] => simp only [decode, hop, reduceCtorEq] at h
          | b :: _ =>
            rw [decode_of_f2 hop] at h
            cases h
            exact ⟨op, _, [b], hop, ⟨b, rfl, rfl⟩, rfl⟩
        | f3 mk =>
          match tail with
          | [] | [_] => simp only [decode, hop, reduceCtorEq] at h
          | b1 :: b2 :: _ =>
            rw [decode_of_f3 hop] at h
            cases h
            exact ⟨op, _, [b1, b2], hop, ⟨hiLo b2 b1, by simp, rfl⟩, rfl⟩
  · rintro ⟨op, f, bs, hop, hmakes, rfl⟩
    cases f with
    | f1 j =>
      obtain ⟨rfl, rfl⟩ := hmakes
      exact decode_of_f1 hop rest
    | f2 mk =>
      obtain ⟨b, rfl, rfl⟩ := hmakes
      exact decode_of_f2 hop b rest
    | f3 mk =>
      obtain ⟨w, rfl, rfl⟩ := hmakes
      simpa using decode_of_f3 hop (lo8 w) (hi8 w) rest

/-- Two bytes after an opcode byte with an entry are enough. -/
theorem exists_decode_of_isSome {op : Byte} (h : (decodeOpcode op).isSome = true) {bytes : List Byte}
    (hlen : 2 ≤ bytes.length) : ∃ i rest, decode (op :: bytes) = .ok (i, rest) := by
  obtain ⟨f, hop⟩ := Option.isSome_iff_exists.mp h
  match bytes, hlen with
  | b1 :: b2 :: _, _ =>
    cases f with
    | f1 i => exact ⟨_, _, decode_of_f1 hop _⟩
    | f2 mk => exact ⟨_, _, decode_of_f2 hop _ _⟩
    | f3 mk => exact ⟨_, _, decode_of_f3 hop _ _ _⟩

theorem decodeOpcode_eq_none_iff {op : Byte} :
    decodeOpcode op = none ↔ ∀ bytes, decode (op :: bytes) = .error (.unknownOpcode op) := by
  refine ⟨decode_of_none, fun h => ?_⟩
  by_contra hne
  obtain ⟨i, rest, hok⟩ := exists_decode_of_isSome (Option.isSome_iff_ne_none.mpr hne)
    (bytes := [0, 0]) le_rfl
  rw [h] at hok
  cases hok

/-- The 256 values of an opcode byte, in rising order. -/
def allBytes : List Byte := (List.finRange 256).map BitVec.ofFin

theorem mem_allBytes (op : Byte) : op ∈ allBytes :=
  List.mem_map.mpr ⟨op.toFin, List.mem_finRange _, rfl⟩

theorem allBytes_nodup : allBytes.Nodup :=
  (List.nodup_finRange 256).map fun _ _ h => congrArg BitVec.toFin h

/-- R57's list against R54's map, byte by byte. -/
theorem unknownBytes_eq_filter :
    Machine.unknownBytes = allBytes.filter fun op => (decodeOpcode op).isNone := by
  decide

theorem unknownBytes_nodup : Machine.unknownBytes.Nodup := by
  rw [unknownBytes_eq_filter]
  exact allBytes_nodup.filter _

theorem mem_unknownBytes_iff {op : Byte} :
    op ∈ Machine.unknownBytes ↔ decodeOpcode op = none := by
  simp [unknownBytes_eq_filter, mem_allBytes]

/-! ## The opcode map against the encoding -/

/-- What the entry makes is encoded by `op` and the operand bytes it was made from. -/
def Form.Encodes (op : Byte) : Form → Prop
  | .f1 i => encode i = [op]
  | .f2 mk => ∀ b, encode (mk b) = [op, b]
  | .f3 mk => ∀ w, encode (mk w) = [op, lo8 w, hi8 w]

theorem Form.Encodes.encode_eq {op : Byte} {f : Form} (hf : f.Encodes op) {i : Instr}
    {bs : List Byte} (h : f.Makes i bs) : encode i = op :: bs := by
  cases f with
  | f1 j =>
    obtain ⟨rfl, rfl⟩ := h
    exact hf
  | f2 mk =>
    obtain ⟨b, rfl, rfl⟩ := h
    exact hf b
  | f3 mk =>
    obtain ⟨w, rfl, rfl⟩ := h
    exact hf w

theorem opcodeRow_encodes (n : Nat) : ∀ e ∈ opcodeRow n, e.2.Encodes e.1 := by
  unfold opcodeRow
  split <;>
    simp only [opcodeRow0, opcodeRow1, opcodeRow2, opcodeRow3, opcodeRow4, opcodeRow5, opcodeRow6,
      opcodeRow7, opcodeRow8, opcodeRow9, opcodeRowA, opcodeRowB, opcodeRowC, opcodeRowD,
      opcodeRowE, opcodeRowF, Form.Encodes, List.forall_mem_cons, List.not_mem_nil,
      false_imp_iff, implies_true, and_true] <;>
    and_intros <;> intros <;> rfl

theorem decodeOpcode_encodes {op : Byte} {f : Form} (h : decodeOpcode op = some f) :
    f.Encodes op := by
  obtain ⟨before, after, hrow, -⟩ := List.lookup_eq_some_iff.mp h
  exact opcodeRow_encodes _ (op, f) (hrow ▸ List.mem_append_cons_self)

/-! ## The table by mnemonic -/

theorem modes_eq_encodings (m : Mnemonic) : m.modes = m.encodings.map Prod.fst := by
  cases m <;> rfl

theorem encodings_modes_nodup (m : Mnemonic) : (m.encodings.map Prod.fst).Nodup := by
  cases m <;> decide

theorem encodings_opcodes_nodup (m : Mnemonic) : (m.encodings.map Prod.snd).Nodup := by
  cases m <;> decide

theorem wellFormedForm_iff {m : Mnemonic} {o : Operand} :
    wellFormedForm m o = true ↔ ∃ op, (o.mode, op) ∈ m.encodings := by
  rw [wellFormedForm, List.contains_iff_mem, modes_eq_encodings]
  simp

/-! ## Operands from their bytes -/

/-- The operand in the mode that the first bytes of a list hold, low byte first (R51, R52). -/
def Operand.read : Mode → List Byte → Option Operand
  | .imm, b :: _ => some (.imm b)
  | .zp, b :: _ => some (.mem (.zp b))
  | .zpx, b :: _ => some (.mem (.zpx b))
  | .zpy, b :: _ => some (.mem (.zpy b))
  | .abs, b1 :: b2 :: _ => some (.mem (.abs (hiLo b2 b1)))
  | .absx, b1 :: b2 :: _ => some (.mem (.absx (hiLo b2 b1)))
  | .absy, b1 :: b2 :: _ => some (.mem (.absy (hiLo b2 b1)))
  | .indx, b :: _ => some (.mem (.indx b))
  | .indy, b :: _ => some (.mem (.indy b))
  | .rel, b :: _ => some (.rel b)
  | .acc, _ => some .acc
  | .imp, _ => some .imp
  | _, _ => none

theorem Operand.read_bytes (o : Operand) (rest : List Byte) :
    Operand.read o.mode (o.bytes ++ rest) = some o := by
  cases o with
  | imm | rel | acc | imp => rfl
  | mem m =>
    cases m with
    | zp | zpx | zpy | indx | indy => rfl
    | abs w | absx w | absy w =>
      simp [Operand.mode, MemOperand.mode, Operand.bytes, MemOperand.bytes, Operand.read]

/-- The mode and the bytes after the opcode decide the operand. -/
theorem Operand.eq_of_mode_of_bytes {o o' : Operand} {rest rest' : List Byte}
    (hmode : o.mode = o'.mode) (hbytes : o.bytes ++ rest = o'.bytes ++ rest') : o = o' := by
  have h := o.read_bytes rest
  rw [hmode, hbytes, o'.read_bytes] at h
  exact (Option.some.inj h).symm

end Sys2Proof
end

section
/-! PROOFS. The statements about encoding (spec/30_encoding.md): decoding and encoding are inverse,
the bytes without an entry, the forms of the table, and the optional extension of
spec/93_implementation_defined.md U8. -/

namespace Sys2Proof

/-! ## Round trips -/

/-- Settles O1: the opcode map's entry for the opcode byte makes the instruction from the operand
bytes of its encoding, and decoding reads exactly those. -/
theorem decodeOfEncodeIsTheInstruction : Obligations.DecodeOfEncodeIsTheInstruction := by
  intro i rest
  obtain ⟨f, hop, hmakes⟩ := opcodeMap_makes i
  exact decode_eq_ok_iff.mpr ⟨opcodeOf i, f, i.operand.bytes, hop, hmakes, rfl⟩

/-- Settles O2: the entry read encodes what it makes as the bytes it was made from. -/
theorem encodeOfDecodeIsTheBytes : Obligations.EncodeOfDecodeIsTheBytes := by
  intro bytes rest i h
  obtain ⟨op, f, bs, hop, hmakes, rfl⟩ := decode_eq_ok_iff.mp h
  rw [(decodeOpcode_encodes hop).encode_eq hmakes, List.cons_append]

theorem encode_injective : Function.Injective encode := by
  intro i j h
  have hi := decodeOfEncodeIsTheInstruction i []
  rw [h, decodeOfEncodeIsTheInstruction j []] at hi
  cases hi
  rfl

/-! ## The forms of the table -/

/-- The mnemonic and the mode decide the opcode byte, so mnemonic and operand decide the encoding. -/
theorem eq_of_mnemonic_of_operand {i j : Instr} (hm : i.mnemonic = j.mnemonic)
    (ho : i.operand = j.operand) : i = j := by
  have hi := encoding_mem i
  rw [hm, ho] at hi
  have hrow := List.inj_on_of_nodup_map (encodings_modes_nodup _) hi (encoding_mem j) rfl
  have hop : opcodeOf i = opcodeOf j := congrArg Prod.snd hrow
  exact encode_injective (by rw [encode, encode, hop, ho])

/-- The instruction is the one that the row's opcode byte and the operand's bytes decode to. -/
theorem exists_instr_of_encoding {m : Mnemonic} {o : Operand} {op : Byte}
    (h : (o.mode, op) ∈ m.encodings) : ∃ i : Instr, i.mnemonic = m ∧ i.operand = o := by
  have hrow : (decodeOpcode op).map Form.mnemonic = some m := encodings_mnemonic m _ h
  have hsome : (decodeOpcode op).isSome = true := by
    rw [← Option.isSome_map, hrow, Option.isSome_some]
  obtain ⟨i, rest, hdec⟩ := exists_decode_of_isSome hsome (bytes := o.bytes ++ [0, 0]) (by simp)
  obtain ⟨rfl, hbytes⟩ := List.cons.inj (encodeOfDecodeIsTheBytes _ _ _ hdec)
  obtain rfl : i.mnemonic = m := Option.some.inj ((mnemonic_opcodeOf i).symm.trans hrow)
  have hmode := List.inj_on_of_nodup_map (encodings_opcodes_nodup _) (encoding_mem i) h rfl
  exact ⟨i, rfl, Operand.eq_of_mode_of_bytes (congrArg Prod.fst hmode) hbytes⟩

/-- Settles O5, by the table of mode and opcode byte per mnemonic and the round trips. -/
theorem everyFormIsOneInstruction : Obligations.EveryFormIsOneInstruction := by
  refine ⟨fun m o h => ?_, fun i => wellFormedForm_iff.mpr ⟨_, encoding_mem i⟩⟩
  obtain ⟨op, hop⟩ := wellFormedForm_iff.mp h
  obtain ⟨i, rfl, rfl⟩ := exists_instr_of_encoding hop
  exact ⟨i, ⟨rfl, rfl⟩, fun j ⟨hm, ho⟩ => eq_of_mnemonic_of_operand hm ho⟩

/-! ## Bytes without an entry, and words of the table -/

/-- Settles O3: the listed bytes are those the opcode map has no entry for. -/
theorem unknownBytesAreThoseOfTheList : Obligations.UnknownBytesAreThoseOfTheList :=
  ⟨rfl, unknownBytes_nodup, fun _ => mem_unknownBytes_iff.trans decodeOpcode_eq_none_iff,
    decode_of_f1 rfl⟩

/-- Settles O6, each word by its opcode byte's entry in the map. -/
theorem wordsWrittenOutFromTheTable : Obligations.WordsWrittenOutFromTheTable :=
  ⟨decode_of_f3 rfl _ _ _, decode_of_f2 rfl _ _, decode_of_f2 rfl _ _, decode_of_f1 rfl _,
    decode_of_f2 rfl _ _, decode_of_f1 rfl _, decode_of_f3 rfl _ _ _, decode_of_f1 rfl _,
    decode_of_f2 rfl _ _⟩

end Sys2Proof

namespace Sys2Proof.Machine

/-! ## Steps at a byte without an entry -/

theorem step_of_decodeOpcode_eq_none {s : State} (h : decodeOpcode (s.load s.pc) = none) :
    step s = undecoded (fetch s) := by
  rw [step, decodeAtPC, bytesAtPC, decode_of_none h]

/-- Settles O4: three entries of the map, and none for 0xFF, which is not the extension's byte. -/
theorem opcodesTheSourceGives : Obligations.OpcodesTheSourceGives := by
  refine ⟨decode_of_f2 rfl, decode_of_f1 rfl, decode_of_f1 rfl, fun s hpc hload => ?_⟩
  rw [← hpc] at hload
  have hext : extended s = false := by simp [extended, hload]
  calc step s = undecoded (fetch s) := step_of_decodeOpcode_eq_none (by rw [hload]; rfl)
    _ = .fault (.unknownOpcode (s.load s.pc) s.pc) := if_neg (ne_true_of_eq_false hext)
    _ = .fault (.unknownOpcode 0xFF#8 0x0000#16) := by rw [hload, hpc]

/-- The extension's jump changes PC only. -/
theorem jmpIndirect_eq_setPC (ptr : Addr) (s : State) :
    jmpIndirect ptr s = s.setPC (jmpIndirect ptr s).pc := rfl

/-- The next address in the same page of 256 bytes. -/
theorem toNat_hiLo_hi8_lo8_add_one (ptr : Addr) :
    (hiLo (hi8 ptr) (lo8 ptr + 1)).toNat = ptr.toNat / 256 * 256 + (ptr.toNat + 1) % 256 := by
  rw [toNat_hiLo, toNat_hi8, BitVec.toNat_add, toNat_lo8]
  exact congrArg _ (Nat.mod_add_mod _ 256 1)

theorem toNat_jmpIndirect_pc (ptr : Addr) (s : State) :
    (jmpIndirect ptr s).pc.toNat =
      (s.mem.read (if s.cfg.jmpIndPageWrap then ptr.toNat / 256 * 256 + (ptr.toNat + 1) % 256
        else (ptr.toNat + 1) % 65536)).toNat * 256 + (s.mem.read ptr.toNat).toNat := by
  rw [jmpIndirect, State.setPC_pc, toNat_hiLo, State.load, State.load, apply_ite BitVec.toNat,
    toNat_hiLo_hi8_lo8_add_one, BitVec.toNat_add]
  rfl

/-- Settles O59: 0x6C has no entry, so with the extension on the step is its jump, and the pointer
is the word of the two bytes after it. -/
theorem extensionJumpsIndirect : Obligations.ExtensionJumpsIndirect := by
  intro s hext hload
  let t := jmpIndirect (hiLo (s.load (s.pc + 2)) (s.load (s.pc + 1))) (fetch s)
  have hstep : step s = .next t :=
    calc step s = undecoded (fetch s) := step_of_decodeOpcode_eq_none (by rw [hload]; rfl)
      _ = .next t := if_pos (show extended s = true by simp [extended, hext, hload])
  refine ⟨t, hstep, ?_, ?_⟩
  · have hpc := toNat_jmpIndirect_pc (hiLo (s.load (s.pc + 2)) (s.load (s.pc + 1))) (fetch s)
    rw [toNat_hiLo] at hpc
    exact hpc
  · rw [← hload]
    exact jmpIndirect_eq_setPC _ _

end Sys2Proof.Machine
end

section
/-! PROOFS. The statements about the addressing-mode resolver (spec/40_addressing_modes.md): each
mode's address as a number, and what the resolver reads. -/

namespace Sys2Proof

/-! ## Zero-page and 16-bit sums as numbers -/

/-- A zero-page sum wraps in 8 bits before it is extended. -/
theorem toNat_zext16_of_add (b v : Byte) : (zext16 (b + v)).toNat = (b.toNat + v.toNat) % 256 := by
  rw [toNat_zext16, BitVec.toNat_add]

/-- An index is added without sign, modulo 65536. -/
theorem toNat_add_zext16 (w : Addr) (v : Byte) :
    (w + zext16 v).toNat = (w.toNat + v.toNat) % 65536 := by
  rw [BitVec.toNat_add, toNat_zext16]

/-- One further in the zero page, counted from an unreduced sum. -/
theorem toNat_zext16_of_add_add_one (b v : Byte) :
    (zext16 (b + v + 1)).toNat = (b.toNat + v.toNat + 1) % 256 := by
  rw [toNat_zext16_of_add, BitVec.toNat_add]
  exact Nat.mod_add_mod _ 256 1

/-- The address after a zero-page one does not wrap: after 0x00FF comes 0x0100. -/
theorem toNat_zext16_add_one (b : Byte) : (zext16 b + 1).toNat = b.toNat + 1 := by
  have := b.isLt
  rw [BitVec.toNat_add, toNat_zext16]
  exact Nat.mod_eq_of_lt (show b.toNat + 1 < 65536 by omega)

namespace Machine

theorem State.toNat_pointer (s : State) (loAt hiAt : Addr) :
    (s.pointer loAt hiAt).toNat =
      (s.mem.read hiAt.toNat).toNat * 256 + (s.mem.read loAt.toNat).toNat :=
  toNat_hiLo _ _

theorem State.pointer_congr {s t : State} (h : t.mem = s.mem) (loAt hiAt : Addr) :
    t.pointer loAt hiAt = s.pointer loAt hiAt :=
  congrArg₂ hiLo (State.load_congr h hiAt) (State.load_congr h loAt)

/-! ## The two pointer modes -/

theorem toNat_effAddr_indx (s : State) (b : Byte) :
    (effAddr s (.indx b)).toNat =
      (s.mem.read ((b.toNat + s.x.toNat + 1) % 256)).toNat * 256 +
        (s.mem.read ((b.toNat + s.x.toNat) % 256)).toNat := by
  rw [effAddr, State.toNat_pointer, toNat_zext16_of_add_add_one, toNat_zext16_of_add]

theorem toNat_effAddr_indy (s : State) (b : Byte) :
    (effAddr s (.indy b)).toNat =
      ((s.mem.read (if s.cfg.indyPtrZpWrap then (b.toNat + 1) % 256 else b.toNat + 1)).toNat * 256 +
        (s.mem.read b.toNat).toNat + s.y.toNat) % 65536 := by
  rw [effAddr, toNat_add_zext16, State.toNat_pointer, apply_ite BitVec.toNat, toNat_zext16_of_add,
    toNat_zext16_add_one, toNat_zext16]
  rfl

/-! ## The statements -/

/-- Settles O44, mode by mode: zero-page sums wrap in 8 bits, and INDX's pointer is read at two of
them. -/
theorem zeroPageAndPointerModesAsNumbers : Obligations.ZeroPageAndPointerModesAsNumbers :=
  fun s b _ => ⟨toNat_zext16 b, toNat_zext16_of_add b s.x, toNat_zext16_of_add b s.y, rfl,
    toNat_effAddr_indx s b⟩

/-- Settles O45: the index is the last summand of each of the three modes. -/
theorem indexedModesWrapAt65536 : Obligations.IndexedModesWrapAt65536 :=
  fun s b w => ⟨toNat_add_zext16 w s.x, toNat_add_zext16 w s.y, toNat_effAddr_indy s b⟩

/-- Settles O46: a mode's formula has X, Y or neither in it, and the two pointer modes read memory;
INDY asks the configuration where. -/
theorem resolverReadsXYMemoryAndConfigOnly : Obligations.ResolverReadsXYMemoryAndConfigOnly := by
  intro s t m hx hy hmem hcfg
  cases m with
  | zp | abs => rfl
  | zpx | absx => rw [effAddr, effAddr, hx]
  | zpy | absy => rw [effAddr, effAddr, hy]
  | indx => rw [effAddr, effAddr, hx, State.pointer_congr hmem]
  | indy => rw [effAddr, effAddr, hy, hcfg, State.pointer_congr hmem]

end Machine

end Sys2Proof
end

section
/-! PROOFS. The statements about the flag engine and the dispatch
(spec/41_flags_and_dispatch.md): the sum as unsigned and as signed numbers, the subtraction as the
addition of the complement, the comparison as a subtraction, and the step as the run of the decoded
instruction. -/

namespace Sys2Proof

/-! ## A byte as a signed number -/

theorem msb_eq_msb_iff (v w : Byte) : v.msb = w.msb ↔ (v.toInt < 0 ↔ w.toInt < 0) := by
  rw [BitVec.msb_eq_toInt, BitVec.msb_eq_toInt, decide_eq_decide]

theorem toInt_bounds (v : Byte) : -128 ≤ v.toInt ∧ v.toInt < 128 :=
  ⟨v.le_toInt, v.toInt_lt⟩

/-- The one's complement has no wrap to account for, unlike the negative. -/
theorem toInt_not (v : Byte) : (~~~v).toInt = -1 - v.toInt := by
  rw [BitVec.toInt_eq_toNat_cond, BitVec.toInt_eq_toNat_cond, BitVec.toNat_not]
  split <;> split <;> omega

namespace Machine

/-! ## Addition with carry -/

theorem addWithCarry_fst (a m : Byte) (c : Bool) :
    (addWithCarry a m c).1 = a + m + BitVec.ofNat 8 c.toNat := by
  simp [addWithCarry, BitVec.ofNat_add]

theorem toNat_addWithCarry (a m : Byte) (c : Bool) :
    (addWithCarry a m c).1.toNat = (a.toNat + m.toNat + c.toNat) % 256 :=
  BitVec.toNat_ofNat ..

/-- The signed result is the signed sum, wrapped into -128..127. -/
theorem toInt_addWithCarry (a m : Byte) (c : Bool) :
    (addWithCarry a m c).1.toInt = (a.toInt + m.toInt + c.toNat).bmod 256 := by
  have hc : (BitVec.ofNat 8 c.toNat).toInt = c.toNat := by cases c <;> rfl
  rw [addWithCarry_fst, BitVec.toInt_add, BitVec.toInt_add, Int.bmod_add_bmod, hc]

theorem addWithCarry_carry_iff (a m : Byte) (c : Bool) :
    (addWithCarry a m c).2.1 = true ↔ a.toNat + m.toNat + c.toNat > 255 :=
  decide_eq_true_iff

theorem addWithCarry_overflow_iff_msb (a m : Byte) (c : Bool) :
    (addWithCarry a m c).2.2 = true ↔ a.msb = m.msb ∧ (addWithCarry a m c).1.msb ≠ a.msb := by
  simp [addWithCarry]

/-- The rule of R92 on bit 7 in its two forms. -/
theorem msb_xor_and_xor_iff (a m r : Byte) :
    ((a ^^^ r) &&& (m ^^^ r)).msb = true ↔ a.msb = m.msb ∧ r.msb ≠ a.msb := by
  rw [BitVec.msb_and, BitVec.msb_xor, BitVec.msb_xor]
  cases a.msb <;> cases m.msb <;> simp

/-- Two signs that agree and a result of the other sign: the sum was wrapped. -/
theorem addWithCarry_overflow_iff_toInt (a m : Byte) (c : Bool) :
    (addWithCarry a m c).2.2 = true ↔
      a.toInt + m.toInt + c.toNat < -128 ∨ 127 < a.toInt + m.toInt + c.toNat := by
  have hr := toInt_addWithCarry a m c
  have ha := toInt_bounds a
  have hm := toInt_bounds m
  have hc := c.toNat_le
  rw [addWithCarry_overflow_iff_msb, ne_eq, msb_eq_msb_iff, msb_eq_msb_iff]
  rw [Int.bmod_def] at hr
  split at hr <;> omega

/-- Settles O41: C is the sum's carry by definition, and V is the sign rule, which says that the
signed sum was wrapped. -/
theorem additionOverflowsExactlyOutsideTheSignedRange :
    Obligations.AdditionOverflowsExactlyOutsideTheSignedRange := by
  intro a m c
  have hmsb := addWithCarry_overflow_iff_msb a m c
  exact ⟨toNat_addWithCarry a m c, addWithCarry_carry_iff a m c, hmsb,
    hmsb.trans (msb_xor_and_xor_iff _ _ _).symm, addWithCarry_overflow_iff_toInt a m c⟩

/-! ## Subtraction and comparison -/

theorem toNat_subWithBorrow (a m : Byte) (c : Bool) :
    ((subWithBorrow a m c).1.toNat : Int) = ((a.toNat : Int) - m.toNat - (1 - c.toNat)) % 256 := by
  rw [subWithBorrow, toNat_addWithCarry, BitVec.toNat_not]
  omega

/-- C after a subtraction is "no borrow". -/
theorem subWithBorrow_carry_iff (a m : Byte) (c : Bool) :
    (subWithBorrow a m c).2.1 = true ↔ (a.toNat : Int) - m.toNat - (1 - c.toNat) ≥ 0 := by
  rw [subWithBorrow, addWithCarry_carry_iff, BitVec.toNat_not]
  omega

theorem subWithBorrow_overflow_iff (a m : Byte) (c : Bool) :
    (subWithBorrow a m c).2.2 = true ↔ a.toInt - m.toInt - (1 - c.toNat) < -128 ∨
      127 < a.toInt - m.toInt - (1 - c.toNat) := by
  rw [subWithBorrow, addWithCarry_overflow_iff_toInt, toInt_not]
  omega

/-- Settles O42: the complement of `m` is 255 - `m` as an unsigned and -1 - `m` as a signed number,
so the sum is the difference, carry and range included. -/
theorem subtractionBorrowsWhenCarryIsClear : Obligations.SubtractionBorrowsWhenCarryIsClear :=
  fun a m c => ⟨toNat_subWithBorrow a m c, subWithBorrow_carry_iff a m c,
    subWithBorrow_overflow_iff a m c⟩

/-- With C = 1 the complement and the carry are the negative. -/
theorem subWithBorrow_true_fst (a m : Byte) : (subWithBorrow a m true).1 = a - m := by
  rw [subWithBorrow, addWithCarry_fst, BitVec.sub_eq_add_neg, BitVec.neg_eq_not_add,
    BitVec.add_assoc]
  rfl

theorem subWithBorrow_true_carry (a m : Byte) :
    (subWithBorrow a m true).2.1 = decide (m.toNat ≤ a.toNat) := by
  rw [Bool.eq_iff_iff, subWithBorrow_carry_iff, decide_eq_true_iff, Bool.toNat_true]
  omega

/-- Settles O43, output by output: the results are the same difference, which is 0 when the operands
are equal. -/
theorem compareIsSubtractionWithoutBorrow : Obligations.CompareIsSubtractionWithoutBorrow := by
  intro reg m
  have hz : (reg - m == 0x00#8) = (reg == m) := by
    rw [Bool.eq_iff_iff, beq_iff_eq, beq_iff_eq]
    exact sub_eq_zero
  dsimp only
  rw [subWithBorrow_true_fst, subWithBorrow_true_carry, hz, compareBytes]

/-! ## Dispatch -/

/-- Settles O7: the fetch is the write of IR and the clearing of the outputs. -/
theorem stepRunsTheDecodedInstruction : Obligations.StepRunsTheDecodedInstruction :=
  fun _ _ _ h => step_of_decodeAtPC h

/-- Settles O13: every instruction has a meaning, which is a map of states. -/
theorem everyHandlerCompletes : Obligations.EveryHandlerCompletes := by
  intro i s
  obtain ⟨g, _, hexec⟩ := exec_meaning i
  exact ⟨g s, hexec s⟩

end Machine

end Sys2Proof
end

section
/-! PROOFS. The statements about loads, stores and register transfers
(spec/42_load_store_transfer.md). What an instruction does that only writes a register with its N
and Z, or only stores a byte, is said once for all of them. -/

namespace Sys2Proof.Machine

/-! ## Ordinary endings -/

@[simp] theorem State.setReg_result (s : State) (r : Reg) (v : Byte) :
    (s.setReg r v).result = s.result := by
  cases r <;> rfl

theorem Quiet.setReg (s : State) (r : Reg) (v : Byte) : Quiet s (s.setReg r v) :=
  ⟨s.setReg_diagnostics r v, s.setReg_result r v⟩

namespace Ordinary

variable {i : Instr} {n : Nat}

theorem advance (h : i.length = n) (s : State) : Ordinary [] [] [] i s (s.advance n) where
  pc := by rw [State.advance_pc, h]
  frame := .advance s n
  quiet := ⟨rfl, rfl⟩

/-- An operation that leaves PC and signals nothing adds what it writes to the frame. -/
theorem andThen {r r' : List Reg} {f f' : List Flag} {m m' : List Addr} {s t u : State}
    (h : Ordinary r f m i s t) (hf : Frame r' f' m' t u) (hpc : u.pc = t.pc := by rfl)
    (hq : Quiet t u := by exact ⟨rfl, rfl⟩) :
    Ordinary (r ++ r') (f ++ f') (m ++ m') i s u where
  pc := hpc.trans h.pc
  frame := h.frame.trans hf
  quiet := ⟨hq.diagnostics.trans h.quiet.diagnostics, hq.result.trans h.quiet.result⟩

theorem setReg_setNZ (h : i.length = n) (s : State) (r : Reg) (v : Byte) :
    Ordinary [r] [.n, .z] [] i s (((s.advance n).setReg r v).setNZ v) :=
  ((advance h s).andThen (.setReg _ r v) (State.setReg_pc _ r v) (.setReg _ r v)).andThen
    (.setNZ _ v)

theorem store (h : i.length = n) (s : State) (ea : Addr) (v : Byte) :
    Ordinary [] [] [ea] i s ((s.advance n).store ea v) :=
  (advance h s).andThen (.store _ ea v)

end Ordinary

/-! ## The two kinds of instruction -/

/-- A register written with its N and Z, as loads and transfers but TXS do. -/
theorem setReg_setNZ_spec {i : Instr} {n : Nat} (h : i.length = n) (s : State) (r : Reg)
    (v : Byte) :
    (((s.advance n).setReg r v).setNZ v).reg r = v ∧
    SetsNZ v (((s.advance n).setReg r v).setNZ v) ∧
    Ordinary [r] [.n, .z] [] i s (((s.advance n).setReg r v).setNZ v) :=
  ⟨(State.reg_setNZ _ v r).trans (State.reg_setReg_same _ r v), setsNZ_setNZ _ v,
    .setReg_setNZ h s r v⟩

/-- A byte stored in memory in canonical form, as the stores do. -/
theorem store_spec {i : Instr} {n : Nat} (h : i.length = n) {s : State} (hs : s.mem.wf = true)
    (ea : Addr) (v : Byte) :
    ((s.advance n).store ea v).load ea = v ∧
    Ordinary [] [] [ea] i s ((s.advance n).store ea v) :=
  ⟨State.load_store_same (s := s.advance n) hs ea v, .store h s ea v⟩

theorem operandAddr_of_operand {i : Instr} {m : MemOperand} (h : i.operand = .mem m) (s : State) :
    operandAddr s i.operand = some (effAddr s m) := by
  rw [h, operandAddr]

/-! ## The statements -/

/-- Settles O19: every form of a load writes its operand value to the register, with N and Z. -/
theorem loadsCopyTheOperandAndSetNZ : Obligations.LoadsCopyTheOperandAndSetNZ := by
  refine ⟨hasEncodings .lda, hasEncodings .ldx, hasEncodings .ldy, fun i s =>
    ⟨fun h => ?lda, fun h => ?ldx, fun h => ?ldy⟩⟩
  case lda =>
    obtain ⟨o, hexec, hval, hlen⟩ := exec_lda h s
    exact ⟨_, _, hval, hexec, setReg_setNZ_spec hlen s .a _⟩
  case ldx =>
    obtain ⟨o, hexec, hval, hlen⟩ := exec_ldx h s
    exact ⟨_, _, hval, hexec, setReg_setNZ_spec hlen s .x _⟩
  case ldy =>
    obtain ⟨o, hexec, hval, hlen⟩ := exec_ldy h s
    exact ⟨_, _, hval, hexec, setReg_setNZ_spec hlen s .y _⟩

/-- Settles O20: every form of a store writes the register at the effective address, which it
resolves in the state before. -/
theorem storesWriteTheRegisterAtTheAddress : Obligations.StoresWriteTheRegisterAtTheAddress := by
  refine ⟨hasEncodings .sta, hasEncodings .stx, hasEncodings .sty, fun i s hs =>
    ⟨fun h => ?sta, fun h => ?stx, fun h => ?sty⟩⟩
  case sta =>
    obtain ⟨o, hexec, hop, hlen⟩ := exec_sta h s
    exact ⟨_, _, operandAddr_of_operand hop s, hexec, store_spec hlen hs _ _⟩
  case stx =>
    obtain ⟨o, hexec, hop, hlen⟩ := exec_stx h s
    exact ⟨_, _, operandAddr_of_operand hop s, hexec, store_spec hlen hs _ _⟩
  case sty =>
    obtain ⟨o, hexec, hop, hlen⟩ := exec_sty h s
    exact ⟨_, _, operandAddr_of_operand hop s, hexec, store_spec hlen hs _ _⟩

/-- Settles O21: TXS writes SP alone, every other transfer a register with its N and Z. -/
theorem transfersCopyTheRegister : Obligations.TransfersCopyTheRegister := by
  refine ⟨hasEncodings .tax, hasEncodings .tay, hasEncodings .txa, hasEncodings .tya,
    hasEncodings .tsx, hasEncodings .txs, fun s => ⟨?tax, ?tay, ?txa, ?tya, ?tsx, ?txs⟩⟩
  case tax => exact ⟨_, rfl, setReg_setNZ_spec (n := 1) rfl s .x s.a⟩
  case tay => exact ⟨_, rfl, setReg_setNZ_spec (n := 1) rfl s .y s.a⟩
  case txa => exact ⟨_, rfl, setReg_setNZ_spec (n := 1) rfl s .a s.x⟩
  case tya => exact ⟨_, rfl, setReg_setNZ_spec (n := 1) rfl s .a s.y⟩
  case tsx => exact ⟨_, rfl, setReg_setNZ_spec (n := 1) rfl s .x s.sp⟩
  case txs => exact ⟨_, rfl, rfl, (Ordinary.advance (n := 1) rfl s).andThen (.setSP _ s.x)⟩

end Sys2Proof.Machine
end

section
/-! PROOFS. The statements about addition, subtraction, comparison and counting
(spec/43_arithmetic.md). What the write-back of a sum, of a comparison and of a counted byte leaves
behind is said once for each; the numbers are those of the flag engine. -/

namespace Sys2Proof.Machine

/-! ## The write-back of a sum and of a comparison -/

theorem State.flag_setNZ_other (s : State) {g : Flag} (hn : g ≠ .n) (hz : g ≠ .z) (v : Byte) :
    (s.setNZ v).flag g = s.flag g := by
  rw [setNZ, flag_setFlag_other _ hz, flag_setFlag_other _ hn]

theorem State.flag_c_setSum (s : State) (r : Byte × Bool × Bool) :
    (s.setSum r).flag .c = r.2.1 := by
  rw [setSum, flag_setNZ_other _ (by decide) (by decide), flag_setFlag_other _ (by decide),
    flag_setFlag_same]

theorem State.flag_v_setSum (s : State) (r : Byte × Bool × Bool) :
    (s.setSum r).flag .v = r.2.2 := by
  rw [setSum, flag_setNZ_other _ (by decide) (by decide), flag_setFlag_same]

theorem State.flag_n_setCompare (s : State) (r : Bool × Bool × Bool) :
    (s.setCompare r).flag .n = r.1 := by
  rw [setCompare, flag_setFlag_other _ (by decide), flag_setFlag_other _ (by decide),
    flag_setFlag_same]

theorem State.flag_z_setCompare (s : State) (r : Bool × Bool × Bool) :
    (s.setCompare r).flag .z = r.2.1 := by
  rw [setCompare, flag_setFlag_other _ (by decide), flag_setFlag_same]

theorem State.flag_c_setCompare (s : State) (r : Bool × Bool × Bool) :
    (s.setCompare r).flag .c = r.2.2 := by
  rw [setCompare, flag_setFlag_same]

/-! ## Bytes as numbers -/

theorem toNat_add_one (v : Byte) : (v + 1).toNat = (v.toNat + 1) % 256 :=
  BitVec.toNat_add v 1

theorem toNat_sub_one (v : Byte) : (v - 1).toNat = (v.toNat + 255) % 256 := by
  bv_omega

theorem msb_sub_iff (v m : Byte) :
    (v - m).msb = true ↔ (v.toNat + 256 - m.toNat) % 256 ≥ 128 := by
  rw [BitVec.msb_eq_decide, decide_eq_true_iff, BitVec.toNat_sub]
  have := m.isLt
  omega

/-! ## The kinds of instruction -/

/-- A sum written back to A with its C, V, N and Z, as ADC and SBC do. -/
theorem setSum_spec {i : Instr} {n : Nat} (h : i.length = n) (s : State) (m : Byte) (c : Bool) :
    let t := (s.advance n).setSum (addWithCarry s.a m c)
    (t.a.toNat = (s.a.toNat + m.toNat + c.toNat) % 256 ∧
      (t.flag .c = true ↔ s.a.toNat + m.toNat + c.toNat > 255)) ∧
    (t.flag .v = true ↔ s.a.msb = m.msb ∧ t.a.msb ≠ s.a.msb) ∧ SetsNZ t.a t ∧
    Ordinary [.a] [.n, .v, .z, .c] [] i s t := by
  refine ⟨⟨toNat_addWithCarry s.a m c, ?carry⟩, ?overflow, setsNZ_setNZ _ _,
    (Ordinary.advance h s).andThen (.setSum _ _)⟩
  case carry => rw [State.flag_c_setSum, addWithCarry_carry_iff]
  case overflow =>
    rw [State.flag_v_setSum]
    exact addWithCarry_overflow_iff_msb s.a m c

/-- The N, Z and C of a comparison, as CMP, CPX and CPY write them. -/
theorem setCompare_spec {i : Instr} {n : Nat} (h : i.length = n) (s : State) (v m : Byte) :
    let t := (s.advance n).setCompare (compareBytes v m)
    (t.flag .n = true ↔ (v.toNat + 256 - m.toNat) % 256 ≥ 128) ∧
    (t.flag .z = true ↔ v = m) ∧ (t.flag .c = true ↔ v.toNat ≥ m.toNat) ∧
    Ordinary [] [.n, .z, .c] [] i s t := by
  refine ⟨?n, ?z, ?c, (Ordinary.advance h s).andThen (.setCompare _ _)⟩
  case n =>
    rw [State.flag_n_setCompare]
    exact msb_sub_iff v m
  case z =>
    rw [State.flag_z_setCompare]
    exact beq_iff_eq
  case c =>
    rw [State.flag_c_setCompare]
    exact decide_eq_true_iff

/-- A byte stored in memory in canonical form with its N and Z, as INC and DEC do. -/
theorem store_setNZ_spec {i : Instr} {n : Nat} (h : i.length = n) {s : State}
    (hs : s.mem.wf = true) (ea : Addr) (v : Byte) :
    let t := ((s.advance n).store ea v).setNZ v
    t.load ea = v ∧ SetsNZ (t.load ea) t ∧ Ordinary [] [.n, .z] [ea] i s t := by
  intro t
  obtain ⟨hstored, hord⟩ := store_spec h hs ea v
  have hload : t.load ea = v := hstored
  refine ⟨hload, ?_, hord.andThen (.setNZ _ v)⟩
  rw [hload]
  exact setsNZ_setNZ _ v

/-! ## The statements -/

/-- Settles O22: every form of ADC writes back the sum of A, its operand value and C. -/
theorem adcAddsWithCarry : Obligations.ADCAddsWithCarry := by
  refine ⟨hasEncodings .adc, fun i s h => ?_⟩
  obtain ⟨o, hexec, hval, hlen⟩ := exec_adc h s
  exact ⟨_, _, hval, hexec, setSum_spec hlen s _ _⟩

/-- Settles O23: the complement of the operand is 255 minus it, and its sign is the other one. -/
theorem sbcAddsTheComplement : Obligations.SBCAddsTheComplement := by
  refine ⟨hasEncodings .sbc, fun i s h => ?_⟩
  obtain ⟨o, hexec, hval, hlen⟩ := exec_sbc h s
  refine ⟨_, _, hval, hexec, ?_⟩
  have hnat (m : Byte) : (~~~m).toNat = 255 - m.toNat := BitVec.toNat_not
  have hmsb (m : Byte) : s.a.msb = (~~~m).msb ↔ s.a.msb ≠ m.msb := by
    simp [Bool.eq_not]
  have hsum := setSum_spec hlen s (~~~sourceValue s o) (s.flag .c)
  rwa [hnat, hmsb] at hsum

/-- Settles O24: every form of a compare writes the flags of its register against its operand
value. -/
theorem comparesSetNZCOnly : Obligations.ComparesSetNZCOnly := by
  refine ⟨hasEncodings .cmp, hasEncodings .cpx, hasEncodings .cpy, fun i s =>
    ⟨fun h => ?cmp, fun h => ?cpx, fun h => ?cpy⟩⟩
  case cmp =>
    obtain ⟨o, hexec, hval, hlen⟩ := exec_cmp h s
    exact ⟨_, _, hval, hexec, setCompare_spec hlen s s.a _⟩
  case cpx =>
    obtain ⟨o, hexec, hval, hlen⟩ := exec_cpx h s
    exact ⟨_, _, hval, hexec, setCompare_spec hlen s s.x _⟩
  case cpy =>
    obtain ⟨o, hexec, hval, hlen⟩ := exec_cpy h s
    exact ⟨_, _, hval, hexec, setCompare_spec hlen s s.y _⟩

/-- Settles O25: every form of INC and DEC stores the counted byte where it read it. -/
theorem incAndDECChangeTheByteByOne : Obligations.INCAndDECChangeTheByteByOne := by
  refine ⟨hasEncodings .inc, hasEncodings .dec, fun i s hs => ⟨fun h => ?inc, fun h => ?dec⟩⟩
  case inc =>
    obtain ⟨o, hexec, hop, hlen⟩ := exec_inc h s
    obtain ⟨hload, hspec⟩ := store_setNZ_spec hlen hs (effAddr s o) (s.load (effAddr s o) + 1)
    exact ⟨_, _, operandAddr_of_operand hop s, hexec,
      (congrArg BitVec.toNat hload).trans (toNat_add_one _), hspec⟩
  case dec =>
    obtain ⟨o, hexec, hop, hlen⟩ := exec_dec h s
    obtain ⟨hload, hspec⟩ := store_setNZ_spec hlen hs (effAddr s o) (s.load (effAddr s o) - 1)
    exact ⟨_, _, operandAddr_of_operand hop s, hexec,
      (congrArg BitVec.toNat hload).trans (toNat_sub_one _), hspec⟩

/-- Settles O26: each writes the counted register with its N and Z. -/
theorem indexRegistersCountByOne : Obligations.IndexRegistersCountByOne := by
  refine ⟨hasEncodings .inx, hasEncodings .iny, hasEncodings .dex, hasEncodings .dey, fun s =>
    ⟨?inx, ?iny, ?dex, ?dey⟩⟩
  case inx =>
    exact ⟨_, rfl, toNat_add_one s.x, (setReg_setNZ_spec (n := 1) rfl s .x (s.x + 1)).2⟩
  case iny =>
    exact ⟨_, rfl, toNat_add_one s.y, (setReg_setNZ_spec (n := 1) rfl s .y (s.y + 1)).2⟩
  case dex =>
    exact ⟨_, rfl, toNat_sub_one s.x, (setReg_setNZ_spec (n := 1) rfl s .x (s.x - 1)).2⟩
  case dey =>
    exact ⟨_, rfl, toNat_sub_one s.y, (setReg_setNZ_spec (n := 1) rfl s .y (s.y - 1)).2⟩

end Sys2Proof.Machine
end

section
/-! PROOFS. The statements about logic (spec/44_logic.md). AND, ORA and EOR write A with its N and Z
as a load does, and differ in the bits of what they write; BIT writes three flags and nothing
else. -/

namespace Sys2Proof.Machine

/-! ## BIT -/

/-- What the Z of BIT tests (R154), by bits. -/
theorem and_eq_zero_iff_no_common_bit (v m : Byte) :
    v &&& m = 0x00#8 ↔ ∀ k, ¬(v.getLsbD k = true ∧ m.getLsbD k = true) := by
  have hbit (k : Nat) :
      (v &&& m).getLsbD k = (0x00#8).getLsbD k ↔
        ¬(v.getLsbD k = true ∧ m.getLsbD k = true) := by
    rw [BitVec.getLsbD_and, BitVec.getLsbD_zero, Bool.and_eq_false_iff, not_and_or,
      Bool.not_eq_true, Bool.not_eq_true]
  constructor
  · intro h k
    exact (hbit k).mp (by rw [h])
  · intro h
    exact BitVec.eq_of_getLsbD_eq fun k _ => (hbit k).mpr (h k)

/-- The Z, N and V that BIT writes, in that order, and no other write. -/
theorem setFlag_znv_spec {i : Instr} {n : Nat} (h : i.length = n) (s : State) (z b7 b6 : Bool) :
    let t := (((s.advance n).setFlag .z z).setFlag .n b7).setFlag .v b6
    t.flag .z = z ∧ t.flag .n = b7 ∧ t.flag .v = b6 ∧ Ordinary [] [.n, .v, .z] [] i s t := by
  refine ⟨?z, ?n, State.flag_setFlag_same _ _ _, (Ordinary.advance h s).andThen ?frame⟩
  case z =>
    rw [State.flag_setFlag_other _ (by decide), State.flag_setFlag_other _ (by decide),
      State.flag_setFlag_same]
  case n => rw [State.flag_setFlag_other _ (by decide), State.flag_setFlag_same]
  case frame =>
    exact (((Frame.setFlag _ .z _).trans (.setFlag _ .n _)).trans (.setFlag _ .v _)).mono

/-! ## The statements -/

/-- Settles O27: every form writes to A, with N and Z, the byte whose bits are the operation on the
bits of A and of its operand value. -/
theorem logicWorksBitByBit : Obligations.LogicWorksBitByBit := by
  refine ⟨hasEncodings .and, hasEncodings .ora, hasEncodings .eor, fun i s =>
    ⟨fun h => ?and, fun h => ?ora, fun h => ?eor⟩⟩
  case and =>
    obtain ⟨o, hexec, hval, hlen⟩ := exec_and h s
    exact ⟨_, _, hval, hexec, fun _ => BitVec.getLsbD_and, (setReg_setNZ_spec hlen s .a _).2⟩
  case ora =>
    obtain ⟨o, hexec, hval, hlen⟩ := exec_ora h s
    exact ⟨_, _, hval, hexec, fun _ => BitVec.getLsbD_or, (setReg_setNZ_spec hlen s .a _).2⟩
  case eor =>
    obtain ⟨o, hexec, hval, hlen⟩ := exec_eor h s
    exact ⟨_, _, hval, hexec, fun _ => BitVec.getLsbD_xor, (setReg_setNZ_spec hlen s .a _).2⟩

/-- Settles O28: Z tests the conjunction of A and the operand value, N and V copy bits of the
operand value itself. -/
theorem bitTestsTheOperand : Obligations.BITTestsTheOperand := by
  refine ⟨hasEncodings .bit, fun i s h => ?_⟩
  obtain ⟨o, hexec, hval, hlen⟩ := exec_bit h s
  obtain ⟨hz, hnv⟩ := setFlag_znv_spec hlen s (s.a &&& sourceValue s o == 0x00#8)
    ((sourceValue s o).getLsbD 7) ((sourceValue s o).getLsbD 6)
  refine ⟨_, _, hval, hexec, ?_, hnv⟩
  exact (Bool.eq_iff_iff.mp hz).trans
    (beq_iff_eq.trans (and_eq_zero_iff_no_common_bit s.a (sourceValue s o)))

end Sys2Proof.Machine
end

section
/-! PROOFS. The statements about shifts and rotates (spec/45_shift_rotate.md). The four mnemonics
have one form (R160): what its write-back leaves behind is said once, for A and for a byte of
memory, and the mnemonics differ in the byte and the carry that they write. -/

namespace Sys2Proof.Machine

/-! ## Results and carries as numbers -/

theorem toNat_bitByte (c : Bool) : (bitByte c).toNat = c.toNat := by
  cases c <;> rfl

theorem msb_iff_toNat_ge (m : Byte) : m.msb = true ↔ m.toNat ≥ 128 := by
  rw [BitVec.msb_eq_decide, decide_eq_true_iff]

theorem getLsbD_zero_iff_odd (m : Byte) : m.getLsbD 0 = true ↔ m.toNat % 2 = 1 := by
  rw [BitVec.getLsbD, Nat.testBit_zero, decide_eq_true_iff]

theorem toNat_asl (m : Byte) : (asl m).1.toNat = m.toNat * 2 % 256 := by
  rw [asl, BitVec.toNat_shiftLeft, Nat.shiftLeft_eq]

theorem toNat_lsr (m : Byte) : (lsr m).1.toNat = m.toNat / 2 := by
  rw [lsr, BitVec.toNat_ushiftRight, Nat.shiftRight_eq_div_pow]

/-- The doubled byte is even, so the carry enters a bit that is 0. -/
theorem toNat_rol (m : Byte) (c : Bool) :
    (rol m c).1.toNat = m.toNat * 2 % 256 + c.toNat := by
  have heven : m.toNat * 2 % 256 = (m.toNat % 128) <<< 1 := by
    rw [Nat.shiftLeft_eq]
    omega
  calc (rol m c).1.toNat = m.toNat * 2 % 256 ||| c.toNat := by
        rw [rol, BitVec.toNat_or, toNat_bitByte]
        exact congrArg (· ||| c.toNat) (toNat_asl m)
    _ = m.toNat * 2 % 256 + c.toNat := by
        rw [heven, Nat.shiftLeft_add_eq_or_of_lt c.toNat_lt]

/-- The halved byte is below 128, so the carry enters a bit that is 0. -/
theorem toNat_ror (m : Byte) (c : Bool) :
    (ror m c).1.toNat = m.toNat / 2 + c.toNat * 128 := by
  have hhalf : m.toNat / 2 < 2 ^ 7 := by
    have := m.isLt
    omega
  have hcarry : (bitByte c <<< 7).toNat = c.toNat <<< 7 := by
    cases c <;> rfl
  calc (ror m c).1.toNat = m.toNat / 2 ||| c.toNat <<< 7 := by
        rw [ror, BitVec.toNat_or, hcarry]
        exact congrArg (· ||| c.toNat <<< 7) (toNat_lsr m)
    _ = m.toNat / 2 + c.toNat * 128 := by
        rw [Nat.lor_comm, ← Nat.shiftLeft_add_eq_or_of_lt hhalf, Nat.shiftLeft_eq, Nat.add_comm]

/-! ## The write-back -/

/-- Writes the result of a shift or rotate back: the place, C, N and Z (R160). -/
def State.setShift (s : State) (place : Target) (r : Byte × Bool) : State :=
  ((s.storeTarget place r.1).setFlag .c r.2).setNZ r.1

theorem shiftWith_eq (f : Byte → Bool → Byte × Bool) (o : Place) (s : State) :
    shiftWith f o s = .next ((s.advance o.length).setShift (resolvePlace s o)
      (f (s.loadTarget (resolvePlace s o)) (s.flag .c))) := rfl

theorem State.flag_c_setShift (s : State) (place : Target) (r : Byte × Bool) :
    (s.setShift place r).flag .c = r.2 := by
  rw [setShift, flag_setNZ_other _ (by decide) (by decide), flag_setFlag_same]

theorem Ordinary.setShift_accumulator {i : Instr} {n : Nat} (h : i.length = n) (s : State)
    (r : Byte × Bool) :
    Ordinary [.a] [.n, .z, .c] [] i s ((s.advance n).setShift .accumulator r) :=
  (advance h s).andThen (((Frame.setA _ _).trans (.setFlag _ .c _)).trans (.setNZ _ _)).mono

theorem Ordinary.setShift_byte {i : Instr} {n : Nat} (h : i.length = n) (s : State) (ea : Addr)
    (r : Byte × Bool) :
    Ordinary [] [.n, .z, .c] [ea] i s ((s.advance n).setShift (.byte ea) r) :=
  (advance h s).andThen (((Frame.store _ ea _).trans (.setFlag _ .c _)).trans (.setNZ _ _)).mono

/-! ## The place of the operand -/

theorem operandValue_placeOperand {i : Instr} {o : Place} (h : i.operand = placeOperand o)
    (s : State) : operandValue s i.operand = some (s.loadTarget (resolvePlace s o)) := by
  rw [h]
  cases o <;> rfl

theorem regsWritten_of_shift {i : Instr} (h : i.mnemonic ∈ [.asl, .lsr, .rol, .ror]) :
    regsWritten i = if i.operand = .acc then [.a] else [] := by
  simp only [List.mem_cons, List.not_mem_nil, or_false] at h
  rcases h with h | h | h | h <;> rw [regsWritten, h]

theorem storedAddrs_of_shift {i : Instr} (h : i.mnemonic ∈ [.asl, .lsr, .rol, .ror]) (s : State) :
    storedAddrs s i = (operandAddr s i.operand).toList := by
  simp only [List.mem_cons, List.not_mem_nil, or_false] at h
  rcases h with h | h | h | h <;> rw [storedAddrs, h]

/-- The common form of R160, whatever `f` computes from the operand and C: its result goes back to
the place of the operand with N and Z, its carry to C, and nothing else is written. -/
theorem exec_shift_spec {i : Instr} (hm : i.mnemonic ∈ [.asl, .lsr, .rol, .ror]) {o : Place}
    {f : Byte → Bool → Byte × Bool} {s : State} (hexec : exec i s = shiftWith f o s)
    (hop : i.operand = placeOperand o) (hlen : i.length = o.length) (hs : s.mem.wf = true) :
    ∃ m t, operandValue s i.operand = some m ∧ exec i s = .next t ∧
      (t.flag .c = true ↔ (f m (s.flag .c)).2 = true) ∧
      (i.operand = .acc → t.a = (f m (s.flag .c)).1) ∧
      (∀ ea, operandAddr s i.operand = some ea → t.load ea = (f m (s.flag .c)).1) ∧
      SetsNZ (f m (s.flag .c)).1 t ∧
      Ordinary (regsWritten i) [.n, .z, .c] (storedAddrs s i) i s t := by
  refine ⟨_, _, operandValue_placeOperand hop s, hexec.trans (shiftWith_eq f o s),
    Bool.eq_iff_iff.mp (State.flag_c_setShift _ _ _), ?_⟩
  rw [regsWritten_of_shift hm, storedAddrs_of_shift hm, hop]
  cases o with
  | acc => exact ⟨fun _ => rfl, nofun, setsNZ_setNZ _ _, .setShift_accumulator hlen s _⟩
  | mem m =>
    refine ⟨nofun, ?_, setsNZ_setNZ _ _, .setShift_byte hlen s (effAddr s m) _⟩
    rintro _ ⟨rfl⟩
    exact (store_spec hlen hs (effAddr s m) _).1

/-! ## The statements -/

/-- Settles O29: every form of ASL and LSR writes the shifted byte back to its place. -/
theorem shiftsMoveOneBitIntoCarry : Obligations.ShiftsMoveOneBitIntoCarry := by
  refine ⟨hasEncodings .asl, hasEncodings .lsr, fun i s hs => ⟨fun h => ?asl, fun h => ?lsr⟩⟩
  case asl =>
    obtain ⟨o, hexec, hop, hlen⟩ := exec_asl h s
    obtain ⟨m, t, hval, hnext, hc, hspec⟩ := exec_shift_spec (by simp [h]) hexec hop hlen hs
    exact ⟨m, t, hval, hnext, _, toNat_asl m, hc.trans (msb_iff_toNat_ge m), hspec⟩
  case lsr =>
    obtain ⟨o, hexec, hop, hlen⟩ := exec_lsr h s
    obtain ⟨m, t, hval, hnext, hc, hspec⟩ := exec_shift_spec (by simp [h]) hexec hop hlen hs
    exact ⟨m, t, hval, hnext, _, toNat_lsr m, hc.trans (getLsbD_zero_iff_odd m), hspec⟩

/-- Settles O30: every form of ROL and ROR writes the byte rotated through C back to its place. -/
theorem rotatesGoThroughCarry : Obligations.RotatesGoThroughCarry := by
  refine ⟨hasEncodings .rol, hasEncodings .ror, fun i s hs => ⟨fun h => ?rol, fun h => ?ror⟩⟩
  case rol =>
    obtain ⟨o, hexec, hop, hlen⟩ := exec_rol h s
    obtain ⟨m, t, hval, hnext, hc, hspec⟩ := exec_shift_spec (by simp [h]) hexec hop hlen hs
    exact ⟨m, t, hval, hnext, _, toNat_rol m _, hc.trans (msb_iff_toNat_ge m), hspec⟩
  case ror =>
    obtain ⟨o, hexec, hop, hlen⟩ := exec_ror h s
    obtain ⟨m, t, hval, hnext, hc, hspec⟩ := exec_shift_spec (by simp [h]) hexec hop hlen hs
    exact ⟨m, t, hval, hnext, _, toNat_ror m _, hc.trans (getLsbD_zero_iff_odd m), hspec⟩

end Sys2Proof.Machine
end

section
/-! PROOFS. The statement about the conditional branches (spec/46_branch.md). The eight run one rule
(R170): they differ in the condition alone, so what the rule does to PC is said once. -/

namespace Sys2Proof

/-- An offset is added with its sign, modulo 65536. -/
theorem toNat_add_sext16 (w : Addr) (d : Byte) :
    ((w + sext16 d).toNat : Int) = (w.toNat + d.toInt) % 65536 := by
  rw [BitVec.toNat_add, ← toInt_sext16, BitVec.toInt_eq_toNat_cond]
  split <;> omega

namespace Machine

/-! ## The common rule -/

theorem branchIf_eq_setPC (taken : Bool) (d : Byte) (s : State) :
    branchIf taken d s = .next (s.setPC (if taken then s.pc + 2 + sext16 d else s.pc + 2)) := by
  cases taken <;> rfl

theorem toNat_branch_pc (taken : Bool) (w : Addr) (d : Byte) :
    ((if taken then w + 2 + sext16 d else w + 2).toNat : Int) =
      (w.toNat + 2 + if taken then d.toInt else 0) % 65536 := by
  have hnext : ((w + 2).toNat : Int) = (w.toNat + 2) % 65536 := by
    rw [BitVec.toNat_add]
    rfl
  cases taken with
  | false => simpa only [Bool.false_eq_true, if_false, add_zero] using hnext
  | true =>
    simp only [if_true]
    rw [toNat_add_sext16, hnext, Int.emod_add_emod]

/-- Every branch runs the common rule under the condition that R170's table gives its mnemonic. -/
theorem exec_branch {i : Instr} {s : State} {d : Byte} {taken : Bool} (hop : i.operand = .rel d)
    (htaken : branchTaken s i.mnemonic = some taken) : exec i s = branchIf taken d s := by
  cases i
  case bcc | bcs | beq | bmi | bne | bpl | bvc | bvs =>
    cases hop
    cases htaken
    rfl
  all_goals cases hop

/-! ## The statement -/

/-- Settles O31: a branch is a write of PC, of the address after it with the offset of a taken branch
added. -/
theorem branchesAddTheOffsetWhenTaken : Obligations.BranchesAddTheOffsetWhenTaken := by
  refine ⟨hasEncodings .bcc, hasEncodings .bcs, hasEncodings .beq, hasEncodings .bmi,
    hasEncodings .bne, hasEncodings .bpl, hasEncodings .bvc, hasEncodings .bvs,
    fun i s d taken hop htaken => ?_⟩
  have hexec := (exec_branch hop htaken).trans (branchIf_eq_setPC taken d s)
  exact ⟨_, hexec, rfl, toNat_branch_pc taken s.pc d⟩

end Machine

end Sys2Proof
end

section
/-! SUPPORT. More of the stack primitives (spec/47_stack.md R185 to R188): the fields that `push` and
`pull` leave, the signals of several in a row, a pull after a push, and which instructions signal. -/

namespace Sys2Proof.Machine

/-! ## The fields after a push and after a pull -/

@[simp] theorem push_sp (v : Byte) (s : State) : (push v s).sp = s.sp - 1 := by rw [push_eq]
@[simp] theorem push_pc (v : Byte) (s : State) : (push v s).pc = s.pc := by rw [push_eq]
@[simp] theorem push_cfg (v : Byte) (s : State) : (push v s).cfg = s.cfg := by rw [push_eq]
@[simp] theorem push_result (v : Byte) (s : State) : (push v s).result = s.result := by rw [push_eq]

theorem load_push_same {s : State} (h : s.mem.wf = true) (v : Byte) :
    (push v s).load (stackAddr s.cfg s.sp) = v := by
  rw [push_eq]
  exact State.load_store_same h _ v

@[simp] theorem pull_sp (s : State) : (pull s).2.sp = s.sp + 1 := by rw [pull_eq]
@[simp] theorem pull_pc (s : State) : (pull s).2.pc = s.pc := by rw [pull_eq]
@[simp] theorem pull_result (s : State) : (pull s).2.result = s.result := by rw [pull_eq]

theorem pull_byte (s : State) : (pull s).1 = pulledByte s 1 := by
  rw [pull_eq]
  rfl

/-! ## Signals in a row -/

theorem push_push_diagnostics (v w : Byte) (s : State) :
    (push w (push v s)).diagnostics = s.diagnostics ++ pushSignals s 2 := by
  rw [push_diagnostics, push_diagnostics, List.append_assoc, pushSignals_succ _ _ (by decide)]

theorem pull_pull_diagnostics (s : State) :
    (pull (pull s).2).2.diagnostics = s.diagnostics ++ pullSignals s 2 := by
  rw [pull_diagnostics, pull_diagnostics, List.append_assoc, pullSignals_succ _ (by decide)]

/-- The pulls of RTI, with the write of P after the first. -/
theorem pull_setStatus_pull_pull_diagnostics (s : State) (p : Byte) :
    (pull (pull ((pull s).2.setStatus p)).2).2.diagnostics = s.diagnostics ++ pullSignals s 3 := by
  rw [pull_pull_diagnostics, State.setStatus_diagnostics, pullSignals_setStatus, pull_diagnostics,
    List.append_assoc, pullSignals_succ _ (by decide)]

theorem pushSignals_cases (s : State) (k : Nat) :
    pushSignals s k = [] ∨ pushSignals s k = [.stackOverflow] :=
  (ite_eq_or_eq _ _ _).symm

theorem pullSignals_cases (s : State) (k : Nat) :
    pullSignals s k = [] ∨ pullSignals s k = [.stackUnderflow] :=
  (ite_eq_or_eq _ _ _).symm

/-! ## A pull after a push -/

theorem pull_push_byte {s : State} (h : s.mem.wf = true) (v : Byte) : (pull (push v s)).1 = v := by
  rw [pull_eq, push_sp, push_cfg, sub_add_cancel]
  exact load_push_same h v

theorem pull_push_sp (v : Byte) (s : State) : (pull (push v s)).2.sp = s.sp := by
  rw [pull_sp, push_sp, sub_add_cancel]

/-- The push comes past 0x00 exactly when the pull comes back past 0xFF. -/
theorem pull_push_diagnostics (v : Byte) (s : State) :
    (pull (push v s)).2.diagnostics = s.diagnostics ++
      if s.sp = 0x00#8 then [.stackOverflow, .stackUnderflow] else [] := by
  have hwrap : s.sp - 1 = 0xFF#8 ↔ s.sp = 0x00#8 := sub_eq_iff_eq_add
  rw [pull_eq, push_eq]
  simp only [hwrap, List.append_assoc]
  split <;> rfl

theorem advance_push (v : Byte) (s : State) (n : Nat) :
    (push v s).advance n = push v (s.advance n) := by
  rw [push_eq, push_eq]
  rfl

/-! ## Writes of the whole of P -/

/-- No flag is one of the bits that the write forces to 1. -/
theorem State.flag_setStatus (s : State) (v : Byte) (f : Flag) :
    (s.setStatus v).flag f = v.getLsbD f.index := by
  have hzero : (0x30#8).getLsbD f.index = false := by cases f <;> rfl
  rw [flag, setStatus_p, BitVec.getLsbD_or, hzero, Bool.or_false]

theorem or_hardwired {p : Byte} (h : p &&& 0x30#8 = 0x30#8) : p ||| 0x30#8 = p := by
  refine BitVec.eq_of_getLsbD_eq fun k _ => ?_
  nth_rw 1 [← h]
  rw [BitVec.getLsbD_or, BitVec.getLsbD_and]
  cases p.getLsbD k <;> rfl

/-! ## The instructions that signal -/

/-- PHA and PHP are the only ones to write SP and one byte of the stack. -/
theorem WritesOnly.pushes {i : Instr}
    (hw : WritesOnly i [.sp] [] fun s => [stackAddr s.cfg s.sp]) : i.mnemonic ∈ [.pha, .php] := by
  have hregs := hw.regs
  have hstored := hw.stored State.reset
  unfold regsWritten at hregs
  unfold storedAddrs at hstored
  generalize i.mnemonic = m at hregs hstored ⊢
  cases m
  case pha | php => decide
  case txs | plp | jsr | rts | rti => cases hstored
  case asl | lsr | rol | ror =>
    dsimp only at hregs
    split at hregs <;> cases hregs
  all_goals cases hregs

namespace Meaning

variable {i : Instr} {g : State → State}

/-- The signals of a meaning are those of the pushes or of the pulls it makes, from SP as it was. -/
theorem signals (h : Meaning i g) (s : State) :
    (g s).diagnostics = s.diagnostics ∨
    (∃ k, (g s).diagnostics = s.diagnostics ++ pushSignals s k ∧
      i.mnemonic ∈ [.pha, .php, .jsr]) ∨
    ∃ k, (g s).diagnostics = s.diagnostics ++ pullSignals s k ∧
      i.mnemonic ∈ [.pla, .plp, .rts, .rti] := by
  cases h with beta_reduce
  | write => exact .inl (by simp)
  | sum | compare | bit | shiftA | store | modify | shiftMem | setFlag | txs | nop | jmp | brk =>
    exact .inl rfl
  | branch => exact .inl (by split <;> rfl)
  | push _ _ hw =>
    exact .inr (.inl ⟨1, push_diagnostics _ _, List.mem_append_left [Mnemonic.jsr] hw.pushes⟩)
  | jsr => exact .inr (.inl ⟨2, push_push_diagnostics _ _ _, by simp [Instr.mnemonic]⟩)
  | pla | plp => exact .inr (.inr ⟨1, pull_diagnostics _, by decide⟩)
  | rts => exact .inr (.inr ⟨2, pull_pull_diagnostics _, by decide⟩)
  | rti => exact .inr (.inr ⟨3, pull_setStatus_pull_pull_diagnostics _ _, by decide⟩)

theorem result (h : Meaning i g) (hb : i.mnemonic ≠ .brk) (s : State) :
    (g s).result = s.result := by
  cases h with beta_reduce
  | write => simp
  | sum | compare | bit | shiftA | store | modify | shiftMem | setFlag | txs | nop | jmp => rfl
  | branch => split <;> rfl
  | push | jsr | pla | plp | rts | rti => simp
  | brk => exact absurd rfl hb

end Meaning

end Sys2Proof.Machine
end

section
/-! PROOFS. The statements about the stack (spec/47_stack.md). PHA and PHP are one push, PLA and PLP
one pull, each after PC is advanced by 1: what that leaves behind is said once for each pair. -/

namespace Sys2Proof.Machine

/-! ## The meanings -/

theorem exec_pha (s : State) : exec .pha s = .next (push s.a (s.advance 1)) := rfl

theorem exec_php (s : State) : exec .php s = .next (push s.p (s.advance 1)) := rfl

theorem exec_pla (s : State) : exec .pla s = .next
    (((pull (s.advance 1)).2.setA (pull (s.advance 1)).1).setNZ (pull (s.advance 1)).1) := rfl

theorem exec_plp (s : State) : exec .plp s = .next
    ((pull (s.advance 1)).2.setStatus (pull (s.advance 1)).1) := rfl

/-- A push of `v` as PHA and PHP do it, in memory in canonical form. -/
theorem push_spec {s : State} (hs : s.mem.wf = true) (v : Byte) :
    let t := push v (s.advance 1)
    t.load (stackAddr s.cfg s.sp) = v ∧ t.sp = s.sp - 1 ∧ t.pc = s.pc + 1 ∧
    t.diagnostics = s.diagnostics ++ pushSignals s 1 ∧ t.result = s.result ∧
    Frame [.sp] [] [stackAddr s.cfg s.sp] s t :=
  ⟨load_push_same (s := s.advance 1) hs v, push_sp _ _, push_pc _ _, push_diagnostics _ _,
    push_result _ _, (Frame.advance s 1).trans (.push (s.advance 1) v)⟩

/-- A push with another instruction's advance of PC before the pull. -/
theorem pull_advance_push {s : State} (hs : s.mem.wf = true) (v : Byte) :
    (pull ((push v (s.advance 1)).advance 1)).1 = v ∧
    (pull ((push v (s.advance 1)).advance 1)).2.sp = s.sp := by
  rw [advance_push]
  exact ⟨pull_push_byte (s := (s.advance 1).advance 1) hs v, pull_push_sp v _⟩

/-! ## The statements -/

/-- Settles O15: a meaning signals by its pushes or its pulls alone, which come past the end of the
window at most once, and only the halt writes the result. -/
theorem onlyStackInstructionsSignal : Obligations.OnlyStackInstructionsSignal := by
  intro i s t ht
  obtain ⟨g, hg, rfl⟩ := meaning_of_exec ht
  refine ⟨?_, fun hb => hg.result hb s⟩
  rcases hg.signals s with h | ⟨k, h, hm⟩ | ⟨k, h, hm⟩
  · exact .inl h
  · rcases pushSignals_cases s k with hk | hk <;> rw [hk] at h
    · exact .inl (h.trans (List.append_nil _))
    · exact .inr (.inl ⟨h, hm⟩)
  · rcases pullSignals_cases s k with hk | hk <;> rw [hk] at h
    · exact .inl (h.trans (List.append_nil _))
    · exact .inr (.inr ⟨h, hm⟩)

/-- Settles O32: both are a push, of A and of P. -/
theorem phaAndPHPPush : Obligations.PHAAndPHPPush :=
  ⟨hasEncodings .pha, hasEncodings .php, fun s hs =>
    ⟨⟨_, exec_pha s, push_spec hs s.a⟩, ⟨_, exec_php s, push_spec hs s.p⟩⟩⟩

/-- Settles O33: PLA is a pull whose byte goes to A with its N and Z. -/
theorem plaPullsAndSetsNZ : Obligations.PLAPullsAndSetsNZ := by
  refine ⟨hasEncodings .pla, fun s => ⟨_, exec_pla s, pull_byte (s.advance 1), setsNZ_setNZ _ _,
    pull_sp _, pull_pc _, pull_diagnostics _, pull_result _, ?frame⟩⟩
  have hpull := (Frame.advance s 1).trans (.pull _)
  exact ((hpull.trans (.setA _ _)).trans (.setNZ _ _)).mono

/-- Settles O34: PLP is a pull whose byte goes to P, with bits 5 and 4 forced to 1. -/
theorem plpPullsTheWritableFlags : Obligations.PLPPullsTheWritableFlags := by
  refine ⟨hasEncodings .plp, fun s => ⟨_, exec_plp s, fun f => ?flags, ?bit5, ?bit4, pull_sp _,
    pull_pc _, pull_diagnostics _, ?rest⟩⟩
  case flags =>
    rw [State.flag_setStatus, pull_byte]
    rfl
  case bit5 | bit4 =>
    rw [State.setStatus_p, BitVec.getLsbD_or]
    exact Bool.or_true _
  case rest =>
    rw [pull_eq]
    rfl

/-- Settles O48: the pull reads where the push wrote, also where SP wraps, and PLA's advance of PC
between them touches neither SP nor memory. -/
theorem pullAfterPushGivesTheByteBack : Obligations.PullAfterPushGivesTheByteBack := by
  intro s hs
  refine ⟨fun v => ⟨pull_push_byte hs v, pull_push_sp v s, pull_push_diagnostics v s⟩,
    fun t u ht hu => ?_⟩
  obtain rfl := Host.Outcome.next.inj ((exec_pha s).symm.trans ht)
  obtain rfl := Host.Outcome.next.inj ((exec_pla _).symm.trans hu)
  exact pull_advance_push hs s.a

/-- Settles O49: PLP pulls the P that PHP pushed, whose bits 5 and 4 are already 1. -/
theorem phpThenPLPRestoresP : Obligations.PHPThenPLPRestoresP := by
  intro s t u hs ht hu
  obtain rfl := Host.Outcome.next.inj ((exec_php s).symm.trans ht)
  obtain rfl := Host.Outcome.next.inj ((exec_plp _).symm.trans hu)
  obtain ⟨hbyte, hsp⟩ := pull_advance_push hs.canonical s.p
  refine ⟨?_, hsp⟩
  rw [State.setStatus_p, hbyte, or_hardwired hs.hardwired]

end Sys2Proof.Machine
end

section
/-! SUPPORT. More of the stack primitives (spec/47_stack.md R185, R186): the bytes of two pushes in a
row, and a pull of PC, which is the common end of RTS and RTI. And what a step does on the opcode
byte of a one-byte instruction. -/

namespace Sys2Proof.Machine

/-! ## Two pushes in a row -/

theorem load_push_other (v : Byte) {s : State} {a : Addr} (h : a ≠ stackAddr s.cfg s.sp) :
    (push v s).load a = s.load a :=
  (Frame.push s v).bytes a (by simpa using h)

/-- The second push goes to another offset of the window, also where SP wraps. -/
theorem load_push_push_first {s : State} (h : s.mem.wf = true) (v w : Byte) :
    (push w (push v s)).load (stackAddr s.cfg s.sp) = v := by
  have hoffset : s.sp ≠ s.sp - 1 := by bv_omega
  rw [load_push_other, load_push_same h]
  rw [push_cfg, push_sp]
  exact fun heq => hoffset (stackAddr_inj heq)

theorem load_push_push_second {s : State} (h : s.mem.wf = true) (v w : Byte) :
    (push w (push v s)).load (stackAddr s.cfg (s.sp - 1)) = w := by
  simpa using load_push_same (wf_push h v) w

/-! ## Pulls in a row -/

/-- After a pull, the next ones are counted one lower. -/
theorem pulledByte_pull (s : State) (k : Nat) :
    pulledByte (pull s).2 k = pulledByte s (k + 1) := by
  have hsp : s.sp + BitVec.ofNat 8 (k + 1) = s.sp + 1 + BitVec.ofNat 8 k := by
    rw [Nat.add_comm, BitVec.ofNat_add]
    exact (BitVec.add_assoc s.sp 1 _).symm
  rw [pulledByte, pulledByte, hsp, pull_eq]
  rfl

theorem pulledByte_setStatus (s : State) (v : Byte) (k : Nat) :
    pulledByte (s.setStatus v) k = pulledByte s k := rfl

/-- PC by two pulls, low byte first, plus `inc`: the end of RTS and RTI (R203, R204). -/
def pullPC (inc : Addr) (s : State) : State :=
  let lo := pull s
  let hi := pull lo.2
  hi.2.setPC (hiLo hi.1 lo.1 + inc)

theorem pullPC_eq (inc : Addr) (s : State) : pullPC inc s = { s with
    pc := hiLo (pulledByte s 2) (pulledByte s 1) + inc
    sp := s.sp + 2
    diagnostics := s.diagnostics ++ pullSignals s 2 } := by
  have hsp : s.sp + 2 = s.sp + 1 + 1 := (BitVec.add_assoc s.sp 1 1).symm
  rw [pullPC, pull_byte, pull_byte, pulledByte_pull, hsp, ← pull_pull_diagnostics, pull_eq, pull_eq]
  rfl

theorem toNat_hiLo_add (hi lo : Byte) (inc : Addr) :
    (hiLo hi lo + inc).toNat = (hi.toNat * 256 + lo.toNat + inc.toNat) % 65536 := by
  rw [BitVec.toNat_add, toNat_hiLo]

/-! ## A step on a one-byte instruction -/

theorem step_of_decodeOpcode_f1 {s : State} {i : Instr}
    (h : decodeOpcode (s.load s.pc) = some (.f1 i)) : step s = exec i (fetch s) :=
  step_of_decodeAtPC (decode_of_f1 h _)

theorem fetch_eq_of_load {s : State} {op : Byte} (h : s.load s.pc = op) :
    fetch s = { s with ir := op, diagnostics := [], result := .ok } := by
  rw [← h]
  rfl

end Sys2Proof.Machine
end

section
/-! PROOFS. The statements about jumps, subroutines and returns (spec/48_jump_subroutine.md). -/

namespace Sys2Proof.Machine

/-! ## The meanings -/

theorem exec_jmp (w : Addr) (s : State) : exec (.jmp w) s = .next ((s.advance 3).setPC w) := rfl

theorem exec_jsr (w : Addr) (s : State) : exec (.jsr w) s = .next
    ((push (lo8 (s.pc + 2)) (push (hi8 (s.pc + 2)) (s.advance 2))).setPC w) := rfl

theorem exec_rts (s : State) : exec .rts s = .next (pullPC 1 (s.advance 1)) := rfl

theorem exec_rti (s : State) : exec .rti s = .next
    (pullPC (if s.cfg.rtiPcIncrement then 1 else 0)
      ((pull (s.advance 1)).2.setStatus (pull (s.advance 1)).1)) := rfl

/-- Everything RTI does, as one update of the state. -/
theorem exec_rti_eq (s : State) : exec .rti s = .next { s with
    p := pulledByte s 1 ||| 0x30#8
    pc := hiLo (pulledByte s 3) (pulledByte s 2) + if s.cfg.rtiPcIncrement then 1 else 0
    sp := s.sp + 3
    diagnostics := s.diagnostics ++ pullSignals s 3 } := by
  have hsp : s.sp + 3 = s.sp + 1 + 2 := (BitVec.add_assoc s.sp 1 2).symm
  rw [exec_rti, pullPC_eq, pullSignals_setStatus, State.setStatus_diagnostics, pull_diagnostics,
    List.append_assoc, pullSignals_succ _ (by decide), pulledByte_setStatus, pulledByte_setStatus,
    pulledByte_pull, pulledByte_pull, pull_byte, hsp, pull_eq]
  rfl

/-! ## The statements -/

/-- Settles O35: PC is written after its advance. -/
theorem jmpGoesToTheOperand : Obligations.JMPGoesToTheOperand :=
  ⟨hasEncodings .jmp, exec_jmp⟩

/-- Settles O36: JSR is two pushes, of the high and the low byte of PC + 2, and a write of PC. -/
theorem jsrPushesTheAddressOfItsLastByte : Obligations.JSRPushesTheAddressOfItsLastByte := by
  refine ⟨hasEncodings .jsr, fun w s hs => ⟨_, exec_jsr w s, ⟨?high, ?low⟩, ?sp, rfl,
    push_push_diagnostics _ _ (s.advance 2), ?result, ?frame⟩⟩
  case high =>
    refine (congrArg BitVec.toNat (load_push_push_first (s := s.advance 2) hs _ _)).trans ?_
    rw [toNat_hi8, BitVec.toNat_add]
    rfl
  case low =>
    refine (congrArg BitVec.toNat (load_push_push_second (s := s.advance 2) hs _ _)).trans ?_
    rw [toNat_lo8, BitVec.toNat_add]
    rfl
  case sp =>
    rw [State.setPC_sp, push_sp, push_sp, State.advance_sp]
    exact sub_sub s.sp 1 1
  case result => simp
  case frame => exact ((Frame.advance s 2).trans (.push_push _ _ _)).trans (.setPC _ w)

/-- Settles O37: RTS is a pull of PC, plus 1. -/
theorem rtsPullsPCAndAddsOne : Obligations.RTSPullsPCAndAddsOne := by
  refine ⟨hasEncodings .rts, fun s => ⟨_, exec_rts s, ?_⟩⟩
  rw [pullPC_eq]
  exact ⟨toNat_hiLo_add _ _ 1, rfl, rfl, rfl⟩

/-- Settles O38: RTI is a pull of P, as PLP's, and a pull of PC, plus the increment. -/
theorem rtiPullsPThenPC : Obligations.RTIPullsPThenPC := by
  refine ⟨hasEncodings .rti, fun s => ⟨_, exec_rti_eq s, State.flag_setStatus s _, ?bit5, ?bit4,
    ?pc, rfl, rfl, rfl⟩⟩
  case bit5 | bit4 =>
    rw [BitVec.getLsbD_or]
    exact Bool.or_true _
  case pc =>
    rw [toNat_hiLo_add, apply_ite BitVec.toNat]
    rfl

/-- After JSR the next two pulls read the address of its last byte and restore SP. -/
theorem pulledBytes_of_exec_jsr {w : Addr} {s t : State} (hs : s.mem.wf = true)
    (ht : exec (.jsr w) s = .next t) :
    t.pc = w ∧ t.sp + 2 = s.sp ∧
    (pulledByte t 2).toNat * 256 + (pulledByte t 1).toNat = (s.pc.toNat + 2) % 65536 := by
  obtain ⟨-, hjsr⟩ := jsrPushesTheAddressOfItsLastByte
  obtain ⟨t', hexec, ⟨hhigh, hlow⟩, hsp, hpc, -, -, hframe⟩ := hjsr w s hs
  obtain rfl := Host.Outcome.next.inj (hexec.symm.trans ht)
  have hone : t'.sp + BitVec.ofNat 8 1 = s.sp - 1 := by rw [hsp]; bv_omega
  have htwo : t'.sp + BitVec.ofNat 8 2 = s.sp := by rw [hsp]; exact sub_add_cancel s.sp 2
  refine ⟨hpc, htwo, ?_⟩
  rw [pulledByte, pulledByte, hframe.cfg, hone, htwo, hhigh, hlow]
  exact Nat.div_add_mod' _ 256

/-- Settles O50: RTS pulls the address of JSR's last byte, which is 2 past the JSR, and adds 1. -/
theorem jsrThenRTSResumesAfterTheCall : Obligations.JSRThenRTSResumesAfterTheCall := by
  intro s w rest hs hdec
  obtain ⟨t, ht⟩ := everyHandlerCompletes (.jsr w) (fetch s)
  obtain ⟨hpc, hsp, hlast⟩ := pulledBytes_of_exec_jsr (s := fetch s) hs ht
  refine ⟨t, (step_of_decodeAtPC hdec).trans ht, hpc, fun u husp hucfg hstack hop => ?_⟩
  obtain ⟨-, hrts⟩ := rtsPullsPCAndAddsOne
  obtain ⟨v, hv, hvpc, hvsp, -, -⟩ := hrts (fetch u)
  have hstep : step u = exec .rts (fetch u) := step_of_decodeOpcode_f1 (by rw [hop]; rfl)
  have hpulled {k : Nat} (hk : BitVec.ofNat 8 k ∈ ([1, 2] : List Byte)) :
      pulledByte (fetch u) k = pulledByte t k := by
    rw [pulledByte, pulledByte, ← hstack _ hk, ← husp, ← hucfg]
    rfl
  refine ⟨v, hstep.trans hv, ?pc, ?sp⟩
  case pc =>
    rw [hvpc, hpulled (by decide), hpulled (by decide), hlast]
    exact Nat.mod_add_mod _ 65536 1
  case sp =>
    calc v.sp = (fetch u).sp + 2 := hvsp
      _ = t.sp + 2 := congrArg (· + 2) husp
      _ = s.sp := hsp

end Sys2Proof.Machine
end

section
/-! PROOFS. The statements about the flag instructions, NOP and the halt sentinel
(spec/49_flag_and_misc.md). -/

namespace Sys2Proof.Machine

/-! ## The meanings -/

theorem exec_nop (s : State) : exec .nop s = .next { s with pc := s.pc + 1 } := rfl

theorem exec_brk (s : State) : exec .brk s = .next { s with result := .halted } := rfl

/-- The flag that each of the seven writes, and what it writes to it (R210 to R216). -/
def flagRows : List (Instr × Flag × Bool) :=
  [(.clc, .c, false), (.sec, .c, true), (.cli, .i, false), (.sei, .i, true),
    (.clv, .v, false), (.cld, .d, false), (.sed, .d, true)]

/-- The seven are one-byte instructions with the same meaning, up to the row. -/
theorem exec_flagRow {row : Instr × Flag × Bool} (h : row ∈ flagRows) (s : State) :
    exec row.1 s = .next ((s.advance 1).setFlag row.2.1 row.2.2) ∧ row.1.length = 1 := by
  simp only [flagRows, List.mem_cons, List.not_mem_nil, or_false] at h
  rcases h with rfl | rfl | rfl | rfl | rfl | rfl | rfl <;> exact ⟨rfl, rfl⟩

/-! ## The statements -/

/-- Settles O39: each advances PC by 1 and writes its flag, whose bit is the only one it reaches. -/
theorem flagInstructionsWriteOneBit : Obligations.FlagInstructionsWriteOneBit := by
  refine ⟨hasEncodings .clc, hasEncodings .sec, hasEncodings .cli, hasEncodings .sei,
    hasEncodings .clv, hasEncodings .cld, hasEncodings .sed, fun row s hrow => ?_⟩
  obtain ⟨hexec, hlen⟩ := exec_flagRow hrow s
  exact ⟨_, hexec, State.flag_setFlag_same _ _ _,
    (Ordinary.advance hlen s).andThen (.setFlag _ row.2.1 row.2.2)⟩

/-- Settles O40: 0xEA decodes to NOP, which advances PC of the fetched state. -/
theorem nopOnlyAdvancesPC : Obligations.NOPOnlyAdvancesPC := by
  refine ⟨hasEncodings .nop, exec_nop, fun s hop => ?_⟩
  rw [step_of_decodeOpcode_f1 (i := .nop) (by rw [hop]; rfl), exec_nop, fetch_eq_of_load hop]

/-- Settles O11: 0x00 decodes to the halt, which writes the result of the fetched state. -/
theorem haltChangesOnlyIR : Obligations.HaltChangesOnlyIR := by
  refine ⟨hasEncodings .brk, exec_brk, fun s hop => ?_⟩
  rw [step_of_decodeOpcode_f1 (i := .brk) (by rw [hop]; rfl), exec_brk, fetch_eq_of_load hop]

end Sys2Proof.Machine
end

section
/-! PROOFS. The statements about the ways a step ends (spec/60_exceptions.md) and about reset and the
end of a run (spec/70_reset_and_hazards.md). The byte at PC decides how a step ends; a step that
does not end in `Ok` changes only what no step reads. -/

namespace Sys2Proof.Machine

/-! ## The three endings of a step -/

theorem step_of_unknown {s : State} (hop : s.load s.pc ∈ unknownBytes)
    (hext : extended s = false) : step s = .fault (.unknownOpcode (s.load s.pc) s.pc) :=
  (step_of_decodeOpcode_eq_none (mem_unknownBytes_iff.mp hop)).trans
    (if_neg (ne_true_of_eq_false hext))

theorem opcodeOf_of_decodeAtPC {s : State} {i : Instr} {rest : List Byte}
    (h : decodeAtPC s = .ok (i, rest)) : opcodeOf i = s.load s.pc :=
  (List.cons.inj (encodeOfDecodeIsTheBytes _ _ _ h)).1

theorem opcodeOf_of_mnemonic_brk {i : Instr} (h : i.mnemonic = .brk) : opcodeOf i = 0x00#8 := by
  have hrow := (hasEncodings .brk i).mp h
  exact congrArg Prod.snd (List.mem_singleton.mp hrow)

/-- A decoded instruction but the halt keeps the `Ok` of the fetch, and so does the extension. -/
theorem step_ok {s : State} (hop : s.load s.pc ≠ 0x00#8)
    (hknown : s.load s.pc ∉ unknownBytes ∨ extended s = true) :
    ∃ t, step s = .next t ∧ t.result = .ok := by
  rcases step_cases s with ⟨i, rest, hdec, hstep⟩ | ⟨_, _, hstep⟩ | ⟨hnone, hext, _⟩
  · obtain ⟨g, hg, hexec⟩ := exec_meaning i
    have hbrk : i.mnemonic ≠ .brk := fun h =>
      hop ((opcodeOf_of_decodeAtPC hdec).symm.trans (opcodeOf_of_mnemonic_brk h))
    exact ⟨_, hstep.trans (hexec _), hg.result hbrk _⟩
  · exact ⟨_, hstep, rfl⟩
  · rcases hknown with hop' | hext'
    · exact absurd (mem_unknownBytes_iff.mpr hnone) hop'
    · exact absurd hext' (ne_true_of_eq_false hext)

/-- Settles O9: the halt sentinel's step, the fault of a byte without an entry, and every other
step. -/
theorem stepResultIsDecidedByTheOpcodeByte : Obligations.StepResultIsDecidedByTheOpcodeByte := by
  obtain ⟨-, -, hhalt⟩ := haltChangesOnlyIR
  exact fun s => ⟨fun hop => ⟨_, hhalt s hop, rfl, rfl, rfl⟩, step_of_unknown, step_ok⟩

/-- Settles O10: the port answers the fault with `unknownState`, which is the fetched state but for
the result. -/
theorem unknownOpcodeChangesOnlyIR : Obligations.UnknownOpcodeChangesOnlyIR := by
  intro s hop hext
  rw [stepPort, step_of_unknown hop hext]
  rfl

/-- The two ways a step can end without `Ok`. -/
theorem stepPort_of_result_ne_ok {s : State} (h : (stepPort s).result ≠ .ok) :
    (s.load s.pc = 0x00#8 ∧
      stepPort s = { s with ir := 0x00#8, diagnostics := [], result := .halted }) ∨
    (s.load s.pc ∈ unknownBytes ∧ extended s = false ∧
      stepPort s = { s with
        ir := s.load s.pc, diagnostics := [], result := .unknownOpcode (s.load s.pc) s.pc }) := by
  obtain ⟨-, -, hhalt⟩ := haltChangesOnlyIR
  by_cases hop : s.load s.pc = 0x00#8
  · exact .inl ⟨hop, stepPort_of_next (hhalt s hop)⟩
  · by_cases hknown : s.load s.pc ∉ unknownBytes ∨ extended s = true
    · obtain ⟨t, hstep, hok⟩ := step_ok hop hknown
      exact absurd hok (by rwa [stepPort_of_next hstep] at h)
    · obtain ⟨hmem, hext⟩ := not_or.mp hknown
      have hmem := not_not.mp hmem
      have hext := eq_false_of_ne_true hext
      exact .inr ⟨hmem, hext, unknownOpcodeChangesOnlyIR s hmem hext⟩

/-- Settles O12: the state after such a step differs from the one before in IR and the outputs,
which no step reads. -/
theorem haltedAndErrorRepeat : Obligations.HaltedAndErrorRepeat := by
  intro s h
  obtain ⟨-, hblind⟩ := everyStepWritesIR s
  rcases stepPort_of_result_ne_ok h with ⟨_, hs⟩ | ⟨_, _, hs⟩
  · exact (congrArg stepPort hs).trans (hblind _ _ _)
  · exact (congrArg stepPort hs).trans (hblind _ _ _)

/-! ## Reset -/

/-- Settles O54: reset is a launch with the memory and the configuration of before. -/
theorem resetWritesAllSevenRegisters : Obligations.ResetWritesAllSevenRegisters :=
  fun _ => ⟨rfl, rfl, rfl, rfl, rfl, rfl, rfl, rfl, rfl, rfl⟩

/-! ## The end of a run -/

/-- The first `k` steps from `s` all end in `Ok`. -/
def OkSteps (k : Nat) (s : State) : Prop := ∀ j, j < k → (stepPort^[j + 1] s).result = .ok

theorem OkSteps.zero (s : State) : OkSteps 0 s := nofun

theorem OkSteps.succ {k : Nat} {s : State} (h : (stepPort s).result = .ok)
    (hk : OkSteps k (stepPort s)) : OkSteps (k + 1) s
  | 0, _ => h
  | j + 1, hj => hk j (Nat.lt_of_succ_lt_succ hj)

/-- The run loop stops at the first step that does not end in `Ok`, or runs out of fuel. -/
theorem runLoop_cases (n : Nat) (s : State) :
    (∃ k, k ≤ n ∧ OkSteps k s ∧ runLoop (n + 1) s = stepPort (stepPort^[k] s) ∧
      (stepPort (stepPort^[k] s)).result ≠ .ok) ∨
    (OkSteps (n + 1) s ∧ runLoop (n + 1) s = stepPort^[n + 1] s) := by
  by_cases h : (stepPort s).result = .ok
  case neg =>
    have hloop := runLoop_of_ended (mt (State.runState_eq_running _).mp h) n
    exact .inl ⟨0, n.zero_le, .zero s, hloop, h⟩
  case pos =>
    have hloop := runLoop_of_running ((State.runState_eq_running _).mpr h) n
    rw [hloop]
    cases n with
    | zero => exact .inr ⟨.succ h (.zero _), rfl⟩
    | succ n =>
      rcases runLoop_cases n (stepPort s) with ⟨k, hk, hok, hend⟩ | ⟨hok, hrun⟩
      · exact .inl ⟨k + 1, Nat.succ_le_succ hk, .succ h hok, hend⟩
      · exact .inr ⟨.succ h hok, hrun⟩

/-- Settles O58: if the run loop stopped at a step without `Ok`, that step is one of the two kinds
and repeats; else all its steps ended in `Ok`. -/
theorem runsEndAtAHaltByteOrAnUnknownOpcode :
    Obligations.RunsEndAtAHaltByteOrAnUnknownOpcode := by
  intro s n
  dsimp only
  rcases runLoop_cases n s with ⟨k, hk, hok, hend, hne⟩ | ⟨hok, hrun⟩
  · have hstay := haltedAndErrorRepeat _ hne
    rw [hend]
    rcases stepPort_of_result_ne_ok hne with ⟨hop, hu⟩ | ⟨hop, hext, hu⟩ <;> rw [hu] at hstay ⊢
    · exact ⟨fun _ => ⟨rfl, hop, hstay, k, hk, hok, rfl⟩, nofun, nofun⟩
    · exact ⟨nofun, fun _ => ⟨rfl, hop, hext, hstay, k, hk, hok, rfl⟩, nofun⟩
  · have hlast : (stepPort^[n + 1] s).runState = .running :=
      (State.runState_eq_running _).mpr (hok n n.lt_succ_self)
    rw [hrun, hlast]
    exact ⟨nofun, nofun, fun _ => ⟨rfl, fun j hj => hok j (Nat.lt_succ_of_le hj)⟩⟩

end Sys2Proof.Machine
end
